-- ==== Sys2Proof/Config.lean ====
section
/-! DEFINITION. What the manual leaves open: free values with no body, so that nothing can be proved of them.
Each is read by the one definition its docstring names. -/

namespace Sys2Proof

/-- Free value (log entry 2): where several of the part's own events fall due at one moment, "either may be taken first";
the part's own step takes the one this names, by the state's free counter (Machine/Step.lean). -/
opaque Config.eventChoice : Nat → Nat

/-- Free value (log entry 3): whether a decode that has run for 1..119 µs completes at this moment. R12 only bounds the
completion: later than the beginning and no later than 120 µs after it (Machine/Step.lean). -/
opaque Config.decodeEnds : Nat → Bool

/-- Free value (log entry 4): whether the tracker's report of a loss or a regain (R23, R24) is handed on before groups 1 to 3 of
the detectors' reports of the same line (R35), or between them and the end-mark confirmation, which R37 makes the last report of
the line. Read at the free counter (Machine/Decoding.lean). -/
opaque Config.trackingReportFirst : Nat → Bool

/-- Free value (log entry 9): the two bytes READ_KEY_CAL sends for a flight point that is above 65535. The default record of
R115 holds such points, and the reply field of section 11.2.3 has 16 bits (Machine/Operands.lean). -/
opaque Config.wideFlightField : Nat → BitVec 16

end Sys2Proof
end

