-- ==== Sys2Proof/Word.lean ====
section
/-! DEFINITION. The word types and index types of the EG8830 (00_scope.md, Tables 4-1 and 4-2). -/

namespace Sys2Proof

/-- One byte of a link frame (R182). -/
abbrev Byte := BitVec 8

/-- A time, due time or stamp: microseconds on the score clock, wrapping (00_scope.md, Table 4-1). -/
abbrev Time := BitVec 32

/-- A roll position: lines since the first line of the roll, wrapping (R14). -/
abbrev Position := BitVec 32

/-- The transport encoder's line index, wrapping modulo 65536 (section 1.3). -/
abbrev LineIndex := BitVec 16

/-- A key or key solenoid, 0..87 (00_scope.md, Table 4-2). -/
abbrev Key := Fin 88

/-- A note track, 0..87; note track n is read on track n+7 (00_scope.md, Table 4-2). -/
abbrev NoteTrack := Fin 88

/-- A roll track, 0..100 (00_scope.md, Table 4-2). -/
abbrev Track := Fin 101

end Sys2Proof
end

