-- ==== Sys2Proof/Syntax.lean ====
section
/-! DEFINITION. The commands of the EG8830: one constructor for each row of spec/opcode_table.json. A request command is
a whole frame taken at select release: its head (link, tag, declared length) and its payload fields as carried, each with the
width that section 11.2.2 gives it. -/

namespace Sys2Proof

/-- The three serial links (00_scope.md, section 2). -/
inductive Link where
  | T
  | C
  | S
  deriving DecidableEq, Repr

/-- What a frame carries besides its code and payload fields: the link, the tag and the declared length
(R177, Table 11-1). -/
structure Head where
  link : Link
  tag : Byte
  declared : Byte
  deriving DecidableEq, Repr

/-- The bits clocked in during one transaction: whole bytes, and the number of bits of an unfinished last byte (R176). -/
structure Frame where
  bytes : List Byte
  extraBits : Fin 8
  deriving DecidableEq, Repr

/-- A key calibration record as WRITE_KEY_CAL carries it (section 11.2.2). -/
structure KeyCalFields where
  touchFloor : BitVec 8
  width : Vector (BitVec 16) 9
  flight : Vector (BitVec 16) 9
  holdDuty : BitVec 16
  settle : BitVec 32
  deriving DecidableEq, Repr

/-- The nine timing settings as SET_TIMING carries them (section 11.2.2). -/
structure TimingFields where
  lookAhead : BitVec 32
  releaseLead : BitVec 32
  pedalLead : BitVec 32
  split : BitVec 8
  accentBoost : BitVec 8
  repeatGap : BitVec 16
  stallTimeout : BitVec 32
  speedTolerance : BitVec 8
  expressionTick : BitVec 16
  deriving DecidableEq, Repr

/-- The commands: link transactions, requests, pin events and the part's own timed events. -/
inductive Instr where
  /-- PIN_RESET (R189). -/
  | pinReset
  /-- TRANSACTION_START (R176): select of a link is asserted. -/
  | transactionStart (link : Link)
  /-- FRAME_DISCARD (R179): a frame that fails the byte-count check. -/
  | frameDiscard (link : Link) (frame : Frame)
  /-- UNKNOWN_REQUEST (R177): a counted frame whose code is not in Table 11-2. -/
  | unknownRequest (head : Head) (code : Byte)
  /-- TRANSPORT_STATUS (R183). -/
  | transportStatus (head : Head)
  /-- PERFORMANCE_STATUS (R183). -/
  | performanceStatus (head : Head)
  /-- READ_EVENTS (R187). -/
  | readEvents (head : Head)
  /-- ACK_EVENTS (R186). -/
  | ackEvents (head : Head) (kinds : BitVec 8)
  /-- SET_EVENT_MASK (R187). -/
  | setEventMask (head : Head) (kinds : BitVec 8)
  /-- SCAN_LINE (R4). -/
  | scanLine (head : Head) (index left right : BitVec 16) (flags : BitVec 8) (photosites : BitVec 256)
  /-- ROLL_LOADED (R57). -/
  | rollLoaded (head : Head) (rate : BitVec 16)
  /-- ROLL_REMOVED (R72). -/
  | rollRemoved (head : Head)
  /-- REWOUND (R71). -/
  | rewound (head : Head)
  /-- INTAKE_RESTART (R8). -/
  | intakeRestart (head : Head)
  /-- PLAY (R58). -/
  | play (head : Head)
  /-- PAUSE (R66). -/
  | pause (head : Head)
  /-- STOP (R67). -/
  | stop (head : Head)
  /-- SET_TEMPO (R43). -/
  | setTempo (head : Head) (factor : BitVec 16)
  /-- SET_TRANSPOSE (R109); the value is signed. -/
  | setTranspose (head : Head) (value : BitVec 8)
  /-- SET_SHADING (R110). -/
  | setShading (head : Head) (mode : BitVec 8) (weight gain : BitVec 16)
  /-- SET_LEVERS (R111). -/
  | setLevers (head : Head) (bass treble : BitVec 16)
  /-- SET_CONSOLE_PEDALS (R154). -/
  | setConsolePedals (head : Head) (damper soft sostenuto : BitVec 8)
  /-- WRITE_KEY_CAL (R116). -/
  | writeKeyCal (head : Head) (key : BitVec 8) (record : KeyCalFields)
  /-- READ_KEY_CAL (R117). -/
  | readKeyCal (head : Head) (key : BitVec 8)
  /-- WRITE_STEP_TABLE (R78). -/
  | writeStepTable (head : Head) (levels : Vector (BitVec 16) 8)
  /-- WRITE_CHANNEL (R83). -/
  | writeChannel (head : Head) (channel : BitVec 8) (rateA rateB : BitVec 16)
  /-- WRITE_PEDAL_CURVE (R158) with a selector other than SOSTENUTO. -/
  | writePedalCurve (head : Head) (selector : BitVec 8) (values : Vector (BitVec 16) 5)
  /-- WRITE_SOSTENUTO_HOLD_DUTY (R158): WRITE_PEDAL_CURVE with selector SOSTENUTO. -/
  | writeSostenutoHoldDuty (head : Head) (values : Vector (BitVec 16) 5)
  /-- SET_TIMING (R119). -/
  | setTiming (head : Head) (fields : TimingFields)
  /-- DRIVE_ENABLE (R167): DRIVE with a value other than disable; only 1 is enable. -/
  | driveEnable (head : Head) (value : BitVec 8)
  /-- DRIVE_DISABLE (R167): DRIVE with value disable. -/
  | driveDisable (head : Head)
  /-- TEST_STRIKE (R145). -/
  | testStrike (head : Head) (key intensity : BitVec 8) (holdMs : BitVec 16)
  /-- READ_KEY_STATE (R150). -/
  | readKeyState (head : Head) (key : BitVec 8)
  /-- READ_COUNTERS (R184). -/
  | readCounters (head : Head)
  /-- RESET_CORE (R190). -/
  | resetCore (head : Head)
  /-- FAULT_EDGE (R168): FAULT_N goes active. -/
  | faultEdge
  /-- FAULT_INPUT_RELEASE (R168): FAULT_N goes inactive. -/
  | faultInputRelease
  /-- DECODE_COMPLETION (R12). -/
  | decodeCompletion
  /-- STALL_TIMER_EXPIRY (R51). -/
  | stallTimerExpiry
  /-- STARTUP_TIMER_EXPIRY (R52). -/
  | startupTimerExpiry
  /-- EXPRESSION_TICK (R85). -/
  | expressionTick
  /-- THERMAL_TICK (R172). -/
  | thermalTick
  /-- PWM_FRAME_BOUNDARY (R166). -/
  | pwmFrameBoundary
  /-- RELEASE_ENTRY_PERFORM (R134). -/
  | releaseEntryPerform
  /-- TAKEOVER_RELEASE_PERFORM (R135). -/
  | takeoverReleasePerform
  /-- PEDAL_ENTRY_PERFORM (R152). -/
  | pedalEntryPerform
  /-- END_ENTRY_PERFORM (R70). -/
  | endEntryPerform
  /-- STRIKE_START (R141): one grant of the arbiter. -/
  | strikeStart
  /-- STRIKE_END (R143) of a key. -/
  | strikeEnd (key : Key)
  /-- SETTLE_END (R144) of a key. -/
  | settleEnd (key : Key)
  /-- KEY_RESTED (R144) of a key. -/
  | keyRested (key : Key)
  /-- PULL_IN_END (R161). -/
  | pullInEnd
  /-- SELECT_RELEASE_AFTER_PIN_RESET (R181): select of a link that was asserted across a pin reset is released. -/
  | selectReleaseAfterPinReset (link : Link)
  deriving DecidableEq, Repr

end Sys2Proof
end

