-- ==== Sys2Proof/WellFormed.lean ====
section
/-! DEFINITION. Which commands the part can be given: a frame that fits R177's count, and a row's own operand values. -/

namespace Sys2Proof

/-- The byte-count check of R177, step 1, with R176's unfinished byte: at least 3 bytes, at most 67, no partial byte, and 3
plus the third byte in all. -/
def Frame.counted (f : Frame) : Bool :=
  f.extraBits == 0 && decide (3 ≤ f.bytes.length) && decide (f.bytes.length ≤ 67) &&
    decide (f.bytes.length = 3 + (f.bytes.getD 2 0#8).toNat)

/-- A counted frame declares at most 64 payload bytes (R177, Table 11-1). -/
def Head.counted (h : Head) : Bool := decide (h.declared.toNat ≤ 64)

/-- The request codes of Table 11-2. -/
def requestCodes : List Byte :=
  [0x01#8, 0x02#8, 0x03#8, 0x04#8, 0x05#8, 0x10#8, 0x11#8, 0x12#8, 0x13#8, 0x14#8,
   0x20#8, 0x21#8, 0x22#8, 0x23#8, 0x24#8, 0x25#8, 0x26#8, 0x27#8] ++
  [0x30#8, 0x31#8, 0x32#8, 0x33#8, 0x34#8, 0x35#8, 0x36#8, 0x37#8, 0x38#8, 0x39#8, 0x3A#8]

/-- The head of a request command; the other commands have none. -/
def Instr.head? : Instr → Option Head
  | .unknownRequest h _ | .transportStatus h | .performanceStatus h | .readEvents h | .ackEvents h _
  | .setEventMask h _ | .scanLine h _ _ _ _ _ | .rollLoaded h _ | .rollRemoved h | .rewound h | .intakeRestart h
  | .play h | .pause h | .stop h | .setTempo h _ | .setTranspose h _ | .setShading h _ _ _ | .setLevers h _ _
  | .setConsolePedals h _ _ _ | .writeKeyCal h _ _ | .readKeyCal h _ | .writeStepTable h _ | .writeChannel h _ _ _
  | .writePedalCurve h _ _ | .writeSostenutoHoldDuty h _ | .setTiming h _ | .driveEnable h _ | .driveDisable h
  | .testStrike h _ _ _ | .readKeyState h _ | .readCounters h | .resetCore h => some h
  | .pinReset | .transactionStart _ | .frameDiscard _ _ | .faultEdge | .faultInputRelease | .decodeCompletion
  | .stallTimerExpiry | .startupTimerExpiry | .expressionTick | .thermalTick | .pwmFrameBoundary | .releaseEntryPerform
  | .takeoverReleasePerform | .pedalEntryPerform | .endEntryPerform | .strikeStart | .strikeEnd _ | .settleEnd _
  | .keyRested _ | .pullInEnd | .selectReleaseAfterPinReset _ => none

/-- The conditions a row puts on its own operands: a discarded frame fails the count, an unknown code is in no row, the
enable row carries no disable value, and the pedal curve row no SOSTENUTO selector. -/
def Instr.operandsFit : Instr → Bool
  | .frameDiscard _ f => !f.counted
  | .unknownRequest _ code => !requestCodes.contains code
  | .driveEnable _ value => value != 0#8
  | .writePedalCurve _ selector _ => selector != 2#8
  | _ => true

/-- A well-formed command. -/
def WellFormed (i : Instr) : Bool := (i.head?.map Head.counted).getD true && i.operandsFit

end Sys2Proof
end

