-- ==== Sys2Proof/Decode.lean ====
section
/-! DEFINITION. The byte layout of request frames (R182, Table 11-2, section 11.2.2): which command a frame spells, and the
frame of a request. The opcode table gives its rows no bits, so `decodeTableWord` spells no command (log entry 1). -/

namespace Sys2Proof

/-! ## Byte order -/

/-- The `n` bytes of a field, least significant first (R182). -/
def leBytes : Nat → Nat → List Byte
  | 0, _ => []
  | n + 1, v => BitVec.ofNat 8 v :: leBytes n (v / 256)

/-- The value of a field's bytes, least significant first (R182). -/
def leValue : List Byte → Nat
  | [] => 0
  | b :: bs => b.toNat + 256 * leValue bs

/-- The field of `len` bytes at offset `off` of a payload. -/
def field (p : List Byte) (off len : Nat) : Nat := leValue ((p.drop off).take len)

/-- The field of one byte at `off`. -/
def field8 (p : List Byte) (off : Nat) : BitVec 8 := BitVec.ofNat 8 (field p off 1)
/-- The field of two bytes at `off`. -/
def field16 (p : List Byte) (off : Nat) : BitVec 16 := BitVec.ofNat 16 (field p off 2)
/-- The field of four bytes at `off`. -/
def field32 (p : List Byte) (off : Nat) : BitVec 32 := BitVec.ofNat 32 (field p off 4)
/-- `n` fields of two bytes each, from `off` on. -/
def fields16 (p : List Byte) (off n : Nat) : Vector (BitVec 16) n := Vector.ofFn fun j => field16 p (off + 2 * j.val)

/-- The bytes of a list of two-byte fields. -/
def bytes16 (vs : List (BitVec 16)) : List Byte := vs.flatMap fun v => leBytes 2 v.toNat

/-! ## Requests -/

/-- The calibration record fields from offset 1 of a WRITE_KEY_CAL payload (section 11.2.2). -/
def keyCalFields (p : List Byte) : KeyCalFields :=
  { touchFloor := field8 p 1, width := fields16 p 2 9, flight := fields16 p 20 9, holdDuty := field16 p 38, settle := field32 p 40 }

/-- The nine timing fields of a SET_TIMING payload (section 11.2.2). -/
def timingFields (p : List Byte) : TimingFields :=
  { lookAhead := field32 p 0, releaseLead := field32 p 4, pedalLead := field32 p 8, split := field8 p 12,
    accentBoost := field8 p 13, repeatGap := field16 p 14, stallTimeout := field32 p 16, speedTolerance := field8 p 20,
    expressionTick := field16 p 21 }

/-- The command a counted frame spells by its code (Table 11-2), its fields read from the payload by section 11.2.2. A
payload shorter than its fields reads as padded with zeros; such a request is answered LENGTH. -/
def decodeRequest (code : Byte) (h : Head) (p : List Byte) : Instr :=
  match code.toNat with
  | 0x01 => .transportStatus h
  | 0x02 => .performanceStatus h
  | 0x03 => .readEvents h
  | 0x04 => .ackEvents h (field8 p 0)
  | 0x05 => .setEventMask h (field8 p 0)
  | 0x10 => .scanLine h (field16 p 0) (field16 p 2) (field16 p 4) (field8 p 6) (BitVec.ofNat 256 (field p 7 32))
  | 0x11 => .rollLoaded h (field16 p 0)
  | 0x12 => .rollRemoved h
  | 0x13 => .rewound h
  | 0x14 => .intakeRestart h
  | 0x20 => .play h
  | 0x21 => .pause h
  | 0x22 => .stop h
  | 0x23 => .setTempo h (field16 p 0)
  | 0x24 => .setTranspose h (field8 p 0)
  | 0x25 => .setShading h (field8 p 0) (field16 p 1) (field16 p 3)
  | 0x26 => .setLevers h (field16 p 0) (field16 p 2)
  | 0x27 => .setConsolePedals h (field8 p 0) (field8 p 1) (field8 p 2)
  | 0x30 => .writeKeyCal h (field8 p 0) (keyCalFields p)
  | 0x31 => .readKeyCal h (field8 p 0)
  | 0x32 => .writeStepTable h (fields16 p 0 8)
  | 0x33 => .writeChannel h (field8 p 0) (field16 p 1) (field16 p 3)
  | 0x34 => if field8 p 0 = 2#8 then .writeSostenutoHoldDuty h (fields16 p 1 5)
            else .writePedalCurve h (field8 p 0) (fields16 p 1 5)
  | 0x35 => .setTiming h (timingFields p)
  | 0x36 => if field8 p 0 = 0#8 then .driveDisable h else .driveEnable h (field8 p 0)
  | 0x37 => .testStrike h (field8 p 0) (field8 p 1) (field16 p 2)
  | 0x38 => .readKeyState h (field8 p 0)
  | 0x39 => .readCounters h
  | 0x3A => .resetCore h
  | _ => .unknownRequest h code

/-- The command that a frame taken at a link's select release is (R176, R177 steps 1 and 2): total on any frame. -/
def decodeFrame (l : Link) (f : Frame) : Instr :=
  if f.counted then
    match f.bytes with
    | code :: tag :: declared :: payload => decodeRequest code ⟨l, tag, declared⟩ payload
    | _ => .frameDiscard l f
  else .frameDiscard l f

/-- The code of a request's row in Table 11-2; none for a command that is no request of that table. -/
def requestCode : Instr → Option Byte
  | .transportStatus _ => some 0x01#8
  | .performanceStatus _ => some 0x02#8
  | .readEvents _ => some 0x03#8
  | .ackEvents _ _ => some 0x04#8
  | .setEventMask _ _ => some 0x05#8
  | .scanLine _ _ _ _ _ _ => some 0x10#8
  | .rollLoaded _ _ => some 0x11#8
  | .rollRemoved _ => some 0x12#8
  | .rewound _ => some 0x13#8
  | .intakeRestart _ => some 0x14#8
  | .play _ => some 0x20#8
  | .pause _ => some 0x21#8
  | .stop _ => some 0x22#8
  | .setTempo _ _ => some 0x23#8
  | .setTranspose _ _ => some 0x24#8
  | .setShading _ _ _ _ => some 0x25#8
  | .setLevers _ _ _ => some 0x26#8
  | .setConsolePedals _ _ _ _ => some 0x27#8
  | .writeKeyCal _ _ _ => some 0x30#8
  | .readKeyCal _ _ => some 0x31#8
  | .writeStepTable _ _ => some 0x32#8
  | .writeChannel _ _ _ _ => some 0x33#8
  | .writePedalCurve _ _ _ => some 0x34#8
  | .writeSostenutoHoldDuty _ _ => some 0x34#8
  | .setTiming _ _ => some 0x35#8
  | .driveEnable _ _ => some 0x36#8
  | .driveDisable _ => some 0x36#8
  | .testStrike _ _ _ _ => some 0x37#8
  | .readKeyState _ _ => some 0x38#8
  | .readCounters _ => some 0x39#8
  | .resetCore _ => some 0x3A#8
  | .pinReset | .transactionStart _ | .frameDiscard _ _ | .unknownRequest _ _ | .faultEdge | .faultInputRelease
  | .decodeCompletion | .stallTimerExpiry | .startupTimerExpiry | .expressionTick | .thermalTick | .pwmFrameBoundary
  | .releaseEntryPerform | .takeoverReleasePerform | .pedalEntryPerform | .endEntryPerform | .strikeStart | .strikeEnd _
  | .settleEnd _ | .keyRested _ | .pullInEnd | .selectReleaseAfterPinReset _ => none

/-- A request's payload bytes, laid out by section 11.2.2. -/
def requestPayload : Instr → List Byte
  | .ackEvents _ kinds | .setEventMask _ kinds => [kinds]
  | .scanLine _ index left right flags photosites =>
      bytes16 [index, left, right] ++ [flags] ++ leBytes 32 photosites.toNat
  | .rollLoaded _ rate => bytes16 [rate]
  | .setTempo _ factor => bytes16 [factor]
  | .setTranspose _ value => [value]
  | .setShading _ mode weight gain => [mode] ++ bytes16 [weight, gain]
  | .setLevers _ bass treble => bytes16 [bass, treble]
  | .setConsolePedals _ damper soft sostenuto => [damper, soft, sostenuto]
  | .writeKeyCal _ key r =>
      [key, r.touchFloor] ++ bytes16 r.width.toList ++ bytes16 r.flight.toList ++ bytes16 [r.holdDuty] ++ leBytes 4 r.settle.toNat
  | .readKeyCal _ key | .readKeyState _ key => [key]
  | .writeStepTable _ levels => bytes16 levels.toList
  | .writeChannel _ channel rateA rateB => [channel] ++ bytes16 [rateA, rateB]
  | .writePedalCurve _ selector values => [selector] ++ bytes16 values.toList
  | .writeSostenutoHoldDuty _ values => [2#8] ++ bytes16 values.toList
  | .setTiming _ t =>
      leBytes 4 t.lookAhead.toNat ++ leBytes 4 t.releaseLead.toNat ++ leBytes 4 t.pedalLead.toNat ++ [t.split, t.accentBoost] ++
        bytes16 [t.repeatGap] ++ leBytes 4 t.stallTimeout.toNat ++ [t.speedTolerance] ++ bytes16 [t.expressionTick]
  | .driveEnable _ value => [value]
  | .driveDisable _ => [0#8]
  | .testStrike _ key intensity holdMs => [key, intensity] ++ bytes16 [holdMs]
  | _ => []

/-- The frame of a request: its link, and code, tag, declared length and payload (Table 11-1). -/
def encodeRequest (i : Instr) : Option (Link × Frame) :=
  match requestCode i, i.head? with
  | some code, some h => some (h.link, ⟨code :: h.tag :: h.declared :: requestPayload i, 0⟩)
  | _, _ => none

/-- The command a word spells by the opcode table's bits. No row of the table gives bits, so no word spells one. -/
def decodeTableWord (_nbits _w : Nat) : Option Instr := none

end Sys2Proof
end

