-- ==== Sys2Proof/Machine/Types.lean ====
section
/-! DEFINITION. The record types of the blocks of the EG8830 (00_scope.md, section 3.1), as plain data. -/

namespace Sys2Proof.Machine

/-- Reply status (Table 11-3). -/
inductive Status where
  | ok
  | unknown
  | length
  | notPermitted
  | busy
  | range
  | driveOff
  deriving DecidableEq, Repr

/-- Event kinds (Table 11-4). -/
inductive EventKind where
  | session
  | speed
  | tracking
  | intake
  | late
  | drop
  | heat
  | fault
  deriving DecidableEq, Repr

/-- A reply slot's content (R178); the reply length is the payload's. -/
structure Reply where
  status : Status
  tag : Byte
  payload : List Byte
  deriving DecidableEq, Repr

/-- A link's transaction (R176, R181): none; in progress, with the reply bytes fixed at the assertion; or a select that was
still asserted when RST_N was released, of which the link takes no notice. -/
inductive Transaction where
  | idle
  | inProgress (fixedReply : List Byte)
  | ignored
  deriving DecidableEq, Repr

/-- One serial port (chapter 11). `lastOut` is the model's own record of what data-out carried in the last ended transaction. -/
structure LinkPort where
  slot : Reply
  latch : BitVec 8
  mask : BitVec 8
  discards : BitVec 32
  transaction : Transaction
  lastOut : List Byte
  deriving DecidableEq, Repr

/-- Intake states (section 1.2). -/
inductive IntakeState where
  | off
  | accepting
  | halted
  deriving DecidableEq, Repr

/-- One accepted scan line (R9). Photosite j is bit j: set is light. -/
structure Line where
  index : LineIndex
  left : Nat
  right : Nat
  leftValid : Bool
  rightValid : Bool
  photosites : BitVec 256
  stamp : Time
  position : Position
  deriving DecidableEq, Repr

/-- The nine timing settings (R119), in the units of that rule. -/
structure Timing where
  lookAhead : Nat
  releaseLead : Nat
  pedalLead : Nat
  split : Nat
  accentBoost : Nat
  repeatGap : Nat
  stallTimeout : Nat
  speedTolerance : Nat
  expressionTick : Nat
  deriving DecidableEq, Repr

/-- Shading modes (R99). -/
inductive ShadingMode where
  | roll
  | manual
  | blend
  deriving DecidableEq, Repr

/-- The note interpreter's console settings (chapter 6). -/
structure Console where
  transpose : Int
  mode : ShadingMode
  blendWeight : Nat
  bassLever : Nat
  trebleLever : Nat
  masterGain : Nat
  deriving DecidableEq, Repr

/-- A running decode (R12): when it began and the settings in force then. -/
structure Decode where
  begun : Time
  timing : Timing
  console : Console
  deriving DecidableEq, Repr

/-- The scan intake (chapter 1). The decoder is free while `decode` is none; else it works on the queue head. -/
structure Intake where
  state : IntakeState
  queue : List Line
  expected : Option LineIndex
  lastPosition : Option Position
  restartBase : Position
  decode : Option Decode
  accepted : BitVec 32
  missing : BitVec 32
  overruns : BitVec 32
  outOfOrder : BitVec 32
  refused : BitVec 32
  deriving DecidableEq, Repr

/-- Tracking states (section 2.2). -/
inductive TrackingState where
  | unseeded
  | locked
  | holding
  | lost
  deriving DecidableEq, Repr

/-- The edge filter's centre and width, in 1/256 photosite (R20). -/
structure Filter where
  cf16 : Nat
  wf16 : Nat
  deriving DecidableEq, Repr

/-- The roll tracker (chapter 2). The working geometry is derived from the filter (R20). -/
structure Tracker where
  state : TrackingState
  filter : Option Filter
  invalidRun : Nat
  validRun : Nat
  deriving DecidableEq, Repr

/-- Position and arrival stamp of a line (R27, R44). -/
structure Mark where
  position : Position
  time : Time
  deriving DecidableEq, Repr

/-- The dark run of an OPEN detector, 0..2 between decodes, with the first-dark mark where R27 has one present. -/
inductive DarkRun where
  | zero
  | one (firstDark : Mark)
  | two (firstDark : Mark)
  deriving DecidableEq, Repr

/-- A hole detector record (R27); each state carries exactly the fields present in it. -/
inductive Detector where
  | closed
  | candidate (first : Mark) (seen count : Nat)
  | opened (onset : Mark) (dark : DarkRun)
  deriving DecidableEq, Repr

/-- Speed conditions (section 3.4). -/
inductive SpeedCondition where
  | unlocked
  | locked
  | offSpeed
  deriving DecidableEq, Repr

/-- The speed monitor (chapter 3). The speed tolerance is one of the timing settings. -/
structure Speed where
  nominalRate : Nat
  tempo : Nat
  anchor : Option Mark
  lastRatio : Nat
  condition : SpeedCondition
  inBandRun : Nat
  outBandRun : Nat
  trim : Int
  outOfBand : BitVec 32
  deriving DecidableEq, Repr

/-- Session states (chapter 4). -/
inductive SessionState where
  | noRoll
  | loaded
  | starting
  | playing
  | paused
  | stalled
  | returning
  deriving DecidableEq, Repr

/-- Stall causes (R55). -/
inductive StallCause where
  | noLines
  | tracking
  | intakeHalt
  deriving DecidableEq, Repr

/-- A set of stall causes: each held at most once (R55). -/
structure CauseSet where
  noLines : Bool
  tracking : Bool
  intakeHalt : Bool
  deriving DecidableEq, Repr

/-- Last causes (R55). -/
inductive LastCause where
  | startFailed
  | driveOff
  | fault
  | stop
  | endMark
  deriving DecidableEq, Repr

/-- The session record (R55). Run and return demand follow the state and are not stored apart from it. -/
structure Session where
  state : SessionState
  causes : CauseSet
  lastCause : Option LastCause
  endConfirmed : Bool
  deriving DecidableEq, Repr

/-- A shaping channel's level, target and rates (R77). -/
structure Channel where
  level : Nat
  target : Nat
  rateA : Nat
  rateB : Nat
  deriving DecidableEq, Repr

/-- The shaping engine (chapter 5). The step codes are those of CH0 (bass) and CH1 (treble). -/
structure Shaping where
  ch0 : Channel
  ch1 : Channel
  ch2 : Channel
  ch3 : Channel
  bassCode : Fin 8
  trebleCode : Fin 8
  stepTable : Vector Nat 8
  deriving DecidableEq, Repr

/-- A key calibration record as stored (R115). The default flight points of R115 exceed the 16 bits of the request's fields
(log entry 9), so the points are held as numbers of microseconds. -/
structure KeyCal where
  touchFloor : Nat
  width : Vector Nat 9
  flight : Vector Nat 9
  holdDuty : Nat
  settle : Nat
  deriving DecidableEq, Repr

/-- The calibration store apart from the timing settings (chapter 7, R157, R158). -/
structure Calibration where
  keys : Vector KeyCal 88
  damperCurve : Vector Nat 5
  softCurve : Vector Nat 5
  sostenutoHold : Nat
  deriving DecidableEq, Repr

/-- A key's owner: a note track or TEST (R104). -/
inductive Owner where
  | note (track : NoteTrack)
  | test
  deriving DecidableEq, Repr

/-- The fields of a STRIKE entry besides its due time and insertion sequence (R129). -/
structure Strike where
  key : Key
  owner : Owner
  intensity : Nat
  width : Nat
  flight : Nat
  sound : Time
  releaseAfter : Bool
  deriving DecidableEq, Repr

/-- The pedals a PEDAL entry can name (R129). -/
inductive Pedal where
  | damper
  | soft
  deriving DecidableEq, Repr

/-- What an action queue entry is to do (R129). `takeover` is the RELEASE entry with owner TAKEOVER. -/
inductive Action where
  | strike (strike : Strike)
  | release (key : Key) (owner : Owner)
  | takeover (key : Key) (displaced : Owner)
  | pedal (pedal : Pedal) (value : Nat)
  | endMark
  deriving DecidableEq, Repr

/-- An action queue entry (R129). -/
structure Entry where
  due : Time
  seq : BitVec 32
  action : Action
  deriving DecidableEq, Repr

/-- A key's phase with the fields present in it (R140). -/
inductive Phase where
  | idle (rested : Bool)
  | strike (endTime : Time) (releaseAfter : Bool) (strikeOwner : Owner)
  | hold
  | releasing (endTime : Time)
  deriving DecidableEq, Repr

/-- Thermal conditions (section 10.3). -/
inductive Thermal where
  | cool
  | warm
  | hot
  deriving DecidableEq, Repr

/-- A key record (R140). -/
structure KeyRecord where
  phase : Phase
  owner : Option Owner
  idleSince : Time
  heat : Nat
  thermal : Thermal
  strikeCount : BitVec 16
  lateCount : BitVec 16
  deriving DecidableEq, Repr

/-- The sostenuto actuator (R159). -/
inductive Sostenuto where
  | off
  | pullIn (endTime : Time)
  | hold
  deriving DecidableEq, Repr

/-- The pedal unit (chapter 9). -/
structure Pedals where
  rollDamper : Nat
  rollSoft : Nat
  consoleDamper : Nat
  consoleSoft : Bool
  consoleSostenuto : Bool
  mergedDamper : Nat
  mergedSoft : Nat
  sostenuto : Sostenuto
  deriving DecidableEq, Repr

/-- The drive stage (chapter 10) and the level of its fault input pin (`faultInput`: FAULT_N is active). -/
structure Drive where
  duties : Vector Nat 91
  actEn : Bool
  faultLatch : Bool
  faultInput : Bool
  deriving DecidableEq, Repr

/-- The four strike counters (R149). -/
structure StrikeCounters where
  performed : BitVec 32
  late : BitVec 32
  dropped : BitVec 32
  cancelled : BitVec 32
  deriving DecidableEq, Repr

end Sys2Proof.Machine
end

