-- ==== Sys2Proof/Machine/Defaults.lean ====
section
/-! DEFINITION. The fixed figures of the part and the value each block takes at pin reset, by the rule named at each. -/

namespace Sys2Proof.Machine

/-! ## Fixed figures -/

/-- Lines the intake queue holds (R9). -/
def intakeCapacity : Nat := 16
/-- Free room from which LINE_RDY is asserted (R11). -/
def lineReadyRoom : Nat := 4
/-- Longest decode in microseconds (R12). -/
def decodeLimit : Nat := 120
/-- A forward jump of this many indices or more is out of order (R5). -/
def gapLimit : Nat := 64
/-- Entries the action queue holds (R130). -/
def queueCapacity : Nat := 96
/-- STRIKE entries the action queue holds (R130). -/
def strikeCapacity : Nat := 80
/-- Strike slots (R138). -/
def slotCount : Nat := 12
/-- Late tolerance in microseconds (R142). -/
def lateTolerance : Nat := 10000
/-- The end tail in microseconds (R69). -/
def endTail : Nat := 2000000
/-- The startup timer's period in microseconds (R52). -/
def startupPeriod : Nat := 3000000
/-- The sostenuto pull-in time in microseconds (R160). -/
def pullInTime : Nat := 60000
/-- The PWM frame in microseconds (R165). -/
def framePeriod : Nat := 50
/-- REFCLK cycles in one PWM frame (R165). -/
def frameCycles : Nat := 800
/-- The thermal tick period in microseconds (R172). -/
def thermalPeriod : Nat := 10000

/-! ## Pin-reset values of the blocks -/

/-- The reply slot after either reset (R178, R190 step 2). -/
def Reply.initial : Reply := { status := .ok, tag := 0#8, payload := [] }

/-- A link after pin reset with its select released (R178, R179, R185, R187). -/
def LinkPort.initial : LinkPort :=
  { slot := Reply.initial, latch := 0#8, mask := 0#8, discards := 0#32, transaction := .idle, lastOut := [] }

/-- The scan intake after either reset (R18). -/
def Intake.initial : Intake :=
  { state := .off, queue := [], expected := none, lastPosition := none, restartBase := 0#32, decode := none,
    accepted := 0#32, missing := 0#32, overruns := 0#32, outOfOrder := 0#32, refused := 0#32 }

/-- The roll tracker after every initialising event (R26). -/
def Tracker.initial : Tracker := { state := .unseeded, filter := none, invalidRun := 0, validRun := 0 }

/-- All detectors CLOSED (R27). -/
def detectorsClosed : Vector Detector 101 := Vector.replicate 101 .closed

/-- The speed monitor after either reset (R53). -/
def Speed.initial : Speed :=
  { nominalRate := 100, tempo := 256, anchor := none, lastRatio := 0, condition := .unlocked,
    inBandRun := 0, outBandRun := 0, trim := 0, outOfBand := 0#32 }

/-- The empty stall-cause set (R55). -/
def CauseSet.empty : CauseSet := { noLines := false, tracking := false, intakeHalt := false }

/-- The session record after either reset (R55). -/
def Session.initial : Session :=
  { state := .noRoll, causes := CauseSet.empty, lastCause := none, endConfirmed := false }

/-- The default step table (section 5.2, R78). -/
def defaultStepTable : Vector Nat 8 := #v[40, 150, 260, 370, 490, 620, 780, 960]

/-- The shaping engine after pin reset, with the default rates of R77 (R93). -/
def Shaping.initial : Shaping :=
  { ch0 := { level := 0, target := 0, rateA := 40, rateB := 2 }
    ch1 := { level := 0, target := 0, rateA := 40, rateB := 2 }
    ch2 := { level := 0, target := 0, rateA := 64, rateB := 24 }
    ch3 := { level := 0, target := 0, rateA := 32, rateB := 32 }
    bassCode := 0
    trebleCode := 0
    stepTable := defaultStepTable }

/-- The default key calibration record (R115). -/
def KeyCal.default : KeyCal :=
  { touchFloor := 8
    width := #v[1200, 2000, 3000, 4200, 5600, 7200, 9000, 11000, 13200]
    flight := #v[118000, 96000, 80000, 68000, 59000, 52000, 47000, 43500, 41000]
    holdDuty := 300
    settle := 35000 }

/-- The calibration store after pin reset (R118, R157, R158). -/
def Calibration.initial : Calibration :=
  { keys := Vector.replicate 88 KeyCal.default
    damperCurve := #v[0, 380, 560, 720, 900]
    softCurve := #v[0, 500, 650, 650, 650]
    sostenutoHold := 350 }

/-- The timing settings after pin reset (R119, R121). -/
def Timing.initial : Timing :=
  { lookAhead := 150000, releaseLead := 15000, pedalLead := 60000, split := 44, accentBoost := 96, repeatGap := 4000,
    stallTimeout := 100000, speedTolerance := 15, expressionTick := 5000 }

/-- The note interpreter's console settings after either reset (R114). -/
def Console.initial : Console :=
  { transpose := 0, mode := .roll, blendWeight := 128, bassLever := 0, trebleLever := 0, masterGain := 256 }

/-- A key record after a reset at the moment `now` (R140, R175). -/
def KeyRecord.atReset (now : Time) : KeyRecord :=
  { phase := .idle false, owner := none, idleSince := now, heat := 0, thermal := .cool, strikeCount := 0#16, lateCount := 0#16 }

/-- The pedal unit after either reset (R164). -/
def Pedals.initial : Pedals :=
  { rollDamper := 0, rollSoft := 0, consoleDamper := 0, consoleSoft := false, consoleSostenuto := false,
    mergedDamper := 0, mergedSoft := 0, sostenuto := .off }

/-- The drive stage after pin reset with the fault input inactive (R166, R168). -/
def Drive.initial : Drive :=
  { duties := Vector.replicate 91 0, actEn := false, faultLatch := false, faultInput := false }

/-- The strike counters after either reset (R149). -/
def StrikeCounters.initial : StrikeCounters :=
  { performed := 0#32, late := 0#32, dropped := 0#32, cancelled := 0#32 }

end Sys2Proof.Machine
end

