-- ==== Sys2Proof/Machine/State.lean ====
section
/-! DEFINITION. The state of the EG8830 and its value after reset. -/

namespace Sys2Proof.Machine

/-- The machine's state: every block of 00_scope.md section 3.1, the score clock, the timers' deadlines, the fault input
pin, the model's free counter (log entry 2) and the queue of waiting commands (first in, first out). -/
structure State where
  /-- The score clock (R40). -/
  clock : Time
  /-- The T-link, C-link and S-link (chapter 11). -/
  linkT : LinkPort
  linkC : LinkPort
  linkS : LinkPort
  /-- The scan intake (chapter 1). -/
  intake : Intake
  /-- The roll tracker and the 101 hole detectors (chapter 2). -/
  tracker : Tracker
  detectors : Vector Detector 101
  /-- The speed monitor (chapter 3). -/
  speed : Speed
  /-- The stall and startup timers: the deadline while running (R41). -/
  stallTimer : Option Time
  startupTimer : Option Time
  /-- The session record (R55). -/
  session : Session
  /-- The shaping engine and its tick deadline (R77, R84). -/
  shaping : Shaping
  expressionDeadline : Time
  /-- The struck key of each note record (R94). -/
  struckKeys : Vector (Option Key) 88
  /-- The note interpreter's console settings (chapter 6). -/
  console : Console
  /-- The calibration store and the timing settings (chapter 7). -/
  calibration : Calibration
  timing : Timing
  /-- The action queue, in queue order, and the insertion sequence counter (R130). -/
  queue : List Entry
  nextSeq : BitVec 32
  /-- The keys that hold a strike slot (R138); the other slots of the twelve are free. -/
  slots : List Key
  /-- The 88 key records (R140). -/
  keys : Vector KeyRecord 88
  /-- The strike counters (R149). -/
  strikes : StrikeCounters
  /-- The pedal unit (chapter 9). -/
  pedals : Pedals
  /-- The drive stage, the next frame boundary and the next thermal tick (chapter 10). -/
  drive : Drive
  frameDeadline : Time
  thermalDeadline : Time
  /-- The model's own counter that draws the free values of Config; not a part of the chip. -/
  freeCount : Nat
  /-- The commands that wait, first in, first out. -/
  pending : List Instr
  deriving DecidableEq, Repr

/-- The reasons the machine could stop with a fault: none. No rule of the manual stops the part, so no step answers with a
fault. -/
inductive Fault where
  deriving DecidableEq, Repr

/-- The reasons a command could have no meaning. -/
inductive Refusal where
  /-- Raised by exec for a command that has no meaning yet; safe. No arm of exec raises it. -/
  | notModelled (mnemonic : String)
  deriving DecidableEq, Repr

/-- The part right after the release of RST_N, with the fault input inactive and every select released (R189 and the rules
named in Machine/Defaults.lean). -/
def State.reset : State :=
  { clock := 0#32
    linkT := LinkPort.initial
    linkC := LinkPort.initial
    linkS := LinkPort.initial
    intake := Intake.initial
    tracker := Tracker.initial
    detectors := detectorsClosed
    speed := Speed.initial
    stallTimer := none
    startupTimer := none
    session := Session.initial
    shaping := Shaping.initial
    expressionDeadline := 5000#32
    struckKeys := Vector.replicate 88 none
    console := Console.initial
    calibration := Calibration.initial
    timing := Timing.initial
    queue := []
    nextSeq := 0#32
    slots := []
    keys := Vector.replicate 88 (KeyRecord.atReset 0#32)
    strikes := StrikeCounters.initial
    pedals := Pedals.initial
    drive := Drive.initial
    frameDeadline := 50#32
    thermalDeadline := 10000#32
    freeCount := 0
    pending := [] }

end Sys2Proof.Machine
end

