-- ==== Sys2Proof/Machine/Operands.lean ====
section
/-! DEFINITION. Arithmetic of the Conventions (00_scope.md, sections 4.4 and 4.5), the codes of Table 11-5, and the reply
payloads of section 11.2.3. -/

namespace Sys2Proof.Machine

/-! ## Arithmetic -/

/-- Clamp a number to lo..hi (section 4.4). -/
def clamp (lo hi x : Nat) : Nat := if x < lo then lo else if hi < x then hi else x

/-- Clamp a signed number to lo..hi (section 4.4). -/
def clampInt (lo hi x : Int) : Int := if x < lo then lo else if hi < x then hi else x

/-- Increase a saturating counter (R16, R46, R140, R149, R179). -/
def satAdd {w : Nat} (c : BitVec w) (n : Nat) : BitVec w := BitVec.ofNat w (min (c.toNat + n) (2 ^ w - 1))

/-- Floor of a signed quotient by a positive number (section 4.4). -/
def floorDiv (x : Int) (n : Nat) : Int := Int.fdiv x n

/-- A signed quotient by a positive number, rounded toward zero (section 4.4). -/
def truncDiv (x : Int) (n : Nat) : Int := Int.tdiv x n

/-- A point of a list of calibration points; 0 past its end, which no rule asks for. -/
def point {n : Nat} (v : Vector Nat n) (i : Nat) : Nat := (v[i]?).getD 0

/-- Interpolation between points i and i+1 at fraction f of `parts`, floored (R123, R157). -/
def interpolate {n : Nat} (v : Vector Nat n) (i f parts : Nat) : Nat :=
  ((point v i : Int) + floorDiv (((point v (i + 1) : Int) - point v i) * f) parts).toNat

/-! ## Times -/

/-- A time d is reached at `now` (section 4.5, R40). -/
def reached (now d : Time) : Bool := decide ((now - d).toNat < 2 ^ 31)

/-- d1 is not later than d2 (section 4.5, R40). -/
def notLater (d1 d2 : Time) : Bool := decide ((d2 - d1).toNat < 2 ^ 31)

/-- The later of two times. -/
def laterOf (d1 d2 : Time) : Time := if notLater d1 d2 then d2 else d1

/-- The time n microseconds after t. -/
def after (t : Time) (n : Nat) : Time := t + BitVec.ofNat 32 n

/-- The time n microseconds before t. -/
def before (t : Time) (n : Nat) : Time := t - BitVec.ofNat 32 n

/-- Microseconds from t1 to t2, modulo 2^32. -/
def elapsed (t1 t2 : Time) : Nat := (t2 - t1).toNat

/-- The entry with sequence s1 was inserted earlier than the one with s2 (R130). -/
def insertedBefore (s1 s2 : BitVec 32) : Bool := decide (1 ≤ (s2 - s1).toNat) && decide ((s2 - s1).toNat < 2 ^ 31)

/-! ## Codes (Tables 11-3 and 11-5) -/

/-- Status codes (Table 11-3). -/
def Status.code : Status → Byte
  | .ok => 0x00#8
  | .unknown => 0x01#8
  | .length => 0x02#8
  | .notPermitted => 0x03#8
  | .busy => 0x04#8
  | .range => 0x05#8
  | .driveOff => 0x06#8

/-- Session state codes (Table 11-5). -/
def SessionState.code : SessionState → Byte
  | .noRoll => 0#8
  | .loaded => 1#8
  | .starting => 2#8
  | .playing => 3#8
  | .paused => 4#8
  | .stalled => 5#8
  | .returning => 6#8

/-- Last cause codes (Table 11-5). -/
def lastCauseCode : Option LastCause → Byte
  | none => 0#8
  | some .startFailed => 1#8
  | some .driveOff => 2#8
  | some .fault => 3#8
  | some .stop => 4#8
  | some .endMark => 5#8

/-- The stall-cause set as a byte: bit 0 NO_LINES, bit 1 TRACKING, bit 2 INTAKE_HALT (R182). -/
def CauseSet.code (c : CauseSet) : Byte :=
  (if c.noLines then 1#8 else 0#8) ||| (if c.tracking then 2#8 else 0#8) ||| (if c.intakeHalt then 4#8 else 0#8)

/-- Intake state codes (Table 11-5). -/
def IntakeState.code : IntakeState → Byte
  | .off => 0#8
  | .accepting => 1#8
  | .halted => 2#8

/-- Tracking state codes (Table 11-5). -/
def TrackingState.code : TrackingState → Byte
  | .unseeded => 0#8
  | .locked => 1#8
  | .holding => 2#8
  | .lost => 3#8

/-- Speed condition codes (Table 11-5). -/
def SpeedCondition.code : SpeedCondition → Byte
  | .unlocked => 0#8
  | .locked => 1#8
  | .offSpeed => 2#8

/-- Shading mode codes (Table 11-5). -/
def ShadingMode.code : ShadingMode → Byte
  | .roll => 0#8
  | .manual => 1#8
  | .blend => 2#8

/-- The shading mode a request's byte names; none is refused with RANGE (R110, Table 11-5). -/
def shadingMode? (b : Byte) : Option ShadingMode :=
  if b = 0#8 then some .roll else if b = 1#8 then some .manual else if b = 2#8 then some .blend else none

/-- An off/on setting a request's byte names; none is refused with RANGE (R154, Table 11-5). -/
def setting? (b : Byte) : Option Bool := if b = 0#8 then some false else if b = 1#8 then some true else none

/-- The key a request's byte names; none (88 or above) is refused with RANGE. -/
def key? (b : Byte) : Option Key := if h : b.toNat < 88 then some ⟨b.toNat, h⟩ else none

/-- Key phase codes (Table 11-5). -/
def Phase.code : Phase → Byte
  | .idle _ => 0#8
  | .strike _ _ _ => 1#8
  | .hold => 2#8
  | .releasing _ => 3#8

/-- Thermal condition codes (Table 11-5). -/
def Thermal.code : Thermal → Byte
  | .cool => 0#8
  | .warm => 1#8
  | .hot => 2#8

/-- Key owner codes (Table 11-5). -/
def ownerCode : Option Owner → Byte
  | none => 0xFF#8
  | some .test => 0xFE#8
  | some (.note n) => BitVec.ofNat 8 n.val

/-! ## Reply payloads (section 11.2.3) -/

/-- The bytes of a reply as clocked out: status, tag, length, payload (R176, Table 11-1). -/
def Reply.bytes (r : Reply) : List Byte := r.status.code :: r.tag :: BitVec.ofNat 8 r.payload.length :: r.payload

/-- A flight point's two bytes. A point above 65535, which only the default record holds, has no stated bytes: they are a free
value (log entry 9). -/
def flightField (f : Nat) : BitVec 16 := if f < 65536 then BitVec.ofNat 16 f else Config.wideFlightField f

/-- A calibration record as READ_KEY_CAL reports it: bytes 1..43 of the WRITE_KEY_CAL payload (section 11.2.3). -/
def KeyCal.bytes (c : KeyCal) : List Byte :=
  [BitVec.ofNat 8 c.touchFloor] ++ bytes16 (c.width.toList.map (BitVec.ofNat 16)) ++ bytes16 (c.flight.toList.map flightField) ++
    leBytes 2 c.holdDuty ++ leBytes 4 c.settle

end Sys2Proof.Machine
end

