-- ==== Sys2Proof/Machine/Flags.lean ====
section
/-! DEFINITION. The part's flags and output lines, all derived from the state: event latches and attention lines (section
11.4), LINE_RDY (R11), the demands (R50), and the drive outputs' pulse (R165). -/

namespace Sys2Proof.Machine

/-- The bit of an event kind (Table 11-4). -/
def EventKind.bit : EventKind → BitVec 8
  | .session => 0x01#8
  | .speed => 0x02#8
  | .tracking => 0x04#8
  | .intake => 0x08#8
  | .late => 0x10#8
  | .drop => 0x20#8
  | .heat => 0x40#8
  | .fault => 0x80#8

/-- A latch takes a kind; one it already holds it keeps once (R185). -/
def LinkPort.raise (p : LinkPort) (e : EventKind) : LinkPort := { p with latch := p.latch ||| e.bit }

/-- Raise an event kind into the latches of all three links (R185). -/
def State.raise (s : State) (e : EventKind) : State :=
  { s with linkT := s.linkT.raise e, linkC := s.linkC.raise e, linkS := s.linkS.raise e }

/-- The link of a name. -/
def State.link (s : State) : Link → LinkPort
  | .T => s.linkT
  | .C => s.linkC
  | .S => s.linkS

/-- Replace one link's port. -/
def State.setLink (s : State) (l : Link) (p : LinkPort) : State :=
  match l with
  | .T => { s with linkT := p }
  | .C => { s with linkC := p }
  | .S => { s with linkS := p }

/-- A link's pending set: its latch and mask in common (R188). -/
def LinkPort.pendingSet (p : LinkPort) : BitVec 8 := p.latch &&& p.mask

/-- A link's attention line is asserted exactly when its pending set is not empty (R188). -/
def State.attention (s : State) (l : Link) : Bool := (s.link l).pendingSet != 0#8

/-- The intake's free room: the line under decode counts as held (R9, R17). -/
def Intake.freeRoom (i : Intake) : Nat := intakeCapacity - i.queue.length

/-- LINE_RDY (R11). -/
def State.lineReady (s : State) : Bool := s.intake.state == .accepting && decide (lineReadyRoom ≤ s.intake.freeRoom)

/-- The roll position reported: the last position, or 0 when there is none (R17). -/
def Intake.rollPosition (i : Intake) : Position := i.lastPosition.getD 0#32

/-- Run demand (R50, R55). -/
def State.runDemand (s : State) : Bool := s.session.state == .starting || s.session.state == .playing

/-- Return demand (R50, R55). -/
def State.returnDemand (s : State) : Bool := s.session.state == .returning

/-- REFCLK cycles of the 800 in a frame for which an output of this duty is high (R165). -/
def highCycles (duty : Nat) : Nat := duty * frameCycles / 1000

/-- The level of drive output i at REFCLK cycle c (0..799) of the frame (R165). -/
def State.driveLevel (s : State) (i : Fin 91) (c : Nat) : Bool := decide (c < highCycles s.drive.duties[i])

/-- A stall cause is in the set. -/
def CauseSet.holds (c : CauseSet) : StallCause → Bool
  | .noLines => c.noLines
  | .tracking => c.tracking
  | .intakeHalt => c.intakeHalt

/-- Add a cause to the set (R63). -/
def CauseSet.add (c : CauseSet) : StallCause → CauseSet
  | .noLines => { c with noLines := true }
  | .tracking => { c with tracking := true }
  | .intakeHalt => { c with intakeHalt := true }

/-- Remove a cause from the set (R64). -/
def CauseSet.remove (c : CauseSet) : StallCause → CauseSet
  | .noLines => { c with noLines := false }
  | .tracking => { c with tracking := false }
  | .intakeHalt => { c with intakeHalt := false }

end Sys2Proof.Machine
end

