-- ==== Sys2Proof/Machine/Ops.lean ====
section
/-! DEFINITION. The named operations over the part's records that every block uses: key records, tracks, and a link's
transaction and reply slot. -/

namespace Sys2Proof.Machine

/-! ## Key records -/

/-- Every key, in increasing number. -/
def allKeys : List Key := List.finRange 88

/-- Key k's record (R140). -/
def State.key (s : State) (k : Key) : KeyRecord := s.keys[k]

/-- Replace key k's record. -/
def State.setKey (s : State) (k : Key) (r : KeyRecord) : State := { s with keys := s.keys.set k r }

/-- Act on every key record. -/
def State.mapKeys (s : State) (f : Key → KeyRecord → KeyRecord) : State :=
  { s with keys := Vector.ofFn fun k => f k s.keys[k] }

/-- Set or clear a key's owner (R104). -/
def State.setOwner (s : State) (k : Key) (o : Option Owner) : State := s.setKey k { s.key k with owner := o }

/-- Key k's calibration record (R115). -/
def State.keyCal (s : State) (k : Key) : KeyCal := s.calibration.keys[k]

/-- The key is in STRIKE. -/
def Phase.isStrike : Phase → Bool
  | .strike _ _ _ => true
  | .idle _ | .hold | .releasing _ => false

/-- The key is in STRIKE or HOLD. -/
def Phase.isSounding : Phase → Bool
  | .strike _ _ _ | .hold => true
  | .idle _ | .releasing _ => false

/-! ## Tracks (Table 4-3) -/

/-- A detector is OPEN. -/
def Detector.isOpen : Detector → Bool
  | .opened _ _ => true
  | .closed | .candidate _ _ _ => false

/-- The track of note track n (00_scope.md, Table 4-2). -/
def noteTrackOf (n : NoteTrack) : Track := ⟨n.val + 7, by omega⟩

/-- END. -/
def trackEnd : Track := 0
/-- DAMPER. -/
def trackDamper : Track := 1
/-- BASS_ACCENT. -/
def trackBassAccent : Track := 2
/-- BASS_GLIDE. -/
def trackBassGlide : Track := 3
/-- BASS_L1. -/
def trackBassL1 : Track := 4
/-- BASS_L2. -/
def trackBassL2 : Track := 5
/-- BASS_L4. -/
def trackBassL4 : Track := 6
/-- TREBLE_L4. -/
def trackTrebleL4 : Track := 95
/-- TREBLE_L2. -/
def trackTrebleL2 : Track := 96
/-- TREBLE_L1. -/
def trackTrebleL1 : Track := 97
/-- TREBLE_GLIDE. -/
def trackTrebleGlide : Track := 98
/-- TREBLE_ACCENT. -/
def trackTrebleAccent : Track := 99
/-- SOFT. -/
def trackSoft : Track := 100

/-- A track reads open while its detector is OPEN (R33). -/
def State.trackOpen (s : State) (t : Track) : Bool := s.detectors[t].isOpen

/-- A step code from a division's three level tracks (R34). -/
def stepCode (l1 l2 l4 : Bool) : Fin 8 :=
  (if l1 then 1 else 0) + (if l2 then 2 else 0) + (if l4 then 4 else 0)

/-- The bass step code of the detectors (R34). -/
def State.bassCode (s : State) : Fin 8 :=
  stepCode (s.trackOpen trackBassL1) (s.trackOpen trackBassL2) (s.trackOpen trackBassL4)

/-- The treble step code of the detectors (R34). -/
def State.trebleCode (s : State) : Fin 8 :=
  stepCode (s.trackOpen trackTrebleL1) (s.trackOpen trackTrebleL2) (s.trackOpen trackTrebleL4)

/-! ## Link transactions (R176 to R181) -/

/-- The bytes clocked out while `bytes` whole bytes and `extra` further bits were clocked in: the fixed reply, then zeros;
of an unfinished last byte only its first `extra` bits were driven (R176). -/
def clockedOut (fixedReply : List Byte) (bytes : Nat) (extra : Fin 8) : List Byte :=
  let out := fixedReply ++ List.replicate (bytes + 1) 0#8
  if extra = 0 then out.take bytes
  else out.take bytes ++ [out.getD bytes 0#8 &&& (0xFF#8 <<< (8 - extra.val))]

/-- The reply fixed for a link's transaction; a select release with no assertion before it in the queue of commands stands for
a whole transaction, whose assertion fixed the slot's content (log entry 7). -/
def LinkPort.fixedReply (p : LinkPort) : List Byte :=
  match p.transaction with
  | .inProgress r => r
  | .idle | .ignored => p.slot.bytes

/-- A select that was asserted across a pin reset, of which the link takes no notice (R181). -/
def State.ignores (s : State) (l : Link) : Bool := (s.link l).transaction == .ignored

/-- The release of an ignored select takes no frame and counts nothing (R181). -/
def State.releaseIgnored (s : State) (l : Link) : State := s.setLink l { s.link l with transaction := .idle }

/-- The release of select ends the link's transaction (R176). -/
def State.endTransaction (s : State) (l : Link) (bytes : Nat) (extra : Fin 8) : State :=
  let p := s.link l
  s.setLink l { p with transaction := .idle, lastOut := clockedOut p.fixedReply bytes extra }

/-- Replace the link's reply slot (R178). -/
def State.answer (s : State) (l : Link) (r : Reply) : State := s.setLink l { s.link l with slot := r }

/-- What a request that reaches step 5 of R177 does: the state it leaves, and its status and reply payload; none for the one
request that has no reply. -/
abbrev Taken := State × Option (Status × List Byte)

/-- A request answered OK with no payload. -/
def taken (s : State) : Taken := (s, some (.ok, []))

/-- A request answered OK with a payload. -/
def takenWith (s : State) (payload : List Byte) : Taken := (s, some (.ok, payload))

/-- A refused request: nothing changes, and the reply has no payload (R178). -/
def refusedWith (s : State) (status : Status) : Taken := (s, some (status, []))

/-- The refusal of R177, step 3 or 4, of a request row permitted on some links with a fixed payload length; none when the
frame passes both. -/
def framingRefusal (h : Head) (permitted : Link → Bool) (length : Nat) : Option Status :=
  if !permitted h.link then some .notPermitted
  else if h.declared.toNat ≠ length then some .length
  else none

/-- A request frame of a known code, taken at its select release: R177 steps 3 to 5 and R178, with R181 for an ignored select. -/
def State.request (s : State) (h : Head) (permitted : Link → Bool) (length : Nat) (act : State → Taken) : State :=
  if s.ignores h.link then s.releaseIgnored h.link
  else
    let s := s.endTransaction h.link (3 + h.declared.toNat) 0
    match framingRefusal h permitted length with
    | some status => s.answer h.link { status := status, tag := h.tag, payload := [] }
    | none =>
      match act s with
      | (s, some (status, payload)) => s.answer h.link { status := status, tag := h.tag, payload := payload }
      | (s, none) => s

/-- Permitted on any link (Table 11-2). -/
def onAny : Link → Bool := fun _ => true
/-- Permitted on the T-link only (Table 11-2). -/
def onT : Link → Bool := fun l => l == .T
/-- Permitted on the C-link only (Table 11-2). -/
def onC : Link → Bool := fun l => l == .C
/-- Permitted on the S-link only (Table 11-2). -/
def onS : Link → Bool := fun l => l == .S

end Sys2Proof.Machine
end

