-- ==== Sys2Proof/Machine/Thermal.lean ====
section
/-! DEFINITION. The heat model of the keys (sections 10.3 and R171 to R174). -/

namespace Sys2Proof.Machine

/-- The thermal condition after a change of heat (R173). -/
def Thermal.evaluate (t : Thermal) (heat : Nat) : Thermal :=
  match t with
  | .cool => if 24000 ≤ heat then .warm else .cool
  | .warm => if 40000 ≤ heat then .hot else if heat < 16000 then .cool else .warm
  | .hot => if 32000 ≤ heat then .hot else if heat < 16000 then .cool else .warm

/-- A key record with a new heat, its condition evaluated (R173). -/
def KeyRecord.withHeat (r : KeyRecord) (heat : Nat) : KeyRecord :=
  { r with heat := heat, thermal := r.thermal.evaluate heat }

/-- The heat a strike start adds: floor(W/16), the sum stored as at most 65535 (R171). -/
def KeyRecord.strikeHeat (r : KeyRecord) (width : Nat) : Nat := min 65535 (r.heat + width / 16)

/-- The applied hold duty: the calibrated duty while COOL, half of it while WARM or HOT (R174). -/
def appliedHoldDuty (t : Thermal) (holdDuty : Nat) : Nat :=
  match t with
  | .cool => holdDuty
  | .warm | .hot => holdDuty / 2

/-- The cooling of one thermal tick (R172, step 1). -/
def cooling (heat : Nat) : Nat :=
  let c := heat * 3 / 256
  if 0 < heat ∧ c = 0 then 1 else c

/-- The holding heat of one thermal tick (R172, step 2). -/
def holdingHeat (r : KeyRecord) (holdDuty : Nat) : Nat :=
  match r.phase with
  | .hold => appliedHoldDuty r.thermal holdDuty / 2
  | .idle _ | .strike _ _ _ | .releasing _ => 0

/-- A key's heat after one thermal tick (R172, step 3). -/
def tickedHeat (r : KeyRecord) (holdDuty : Nat) : Nat := min 65535 (r.heat - cooling r.heat + holdingHeat r holdDuty)

/-- A key record after one thermal tick (R172, R173). -/
def KeyRecord.thermalTick (r : KeyRecord) (holdDuty : Nat) : KeyRecord := r.withHeat (tickedHeat r holdDuty)

end Sys2Proof.Machine
end

