-- ==== Sys2Proof/Machine/KeyActuation.lean ====
section
/-! DEFINITION. Key phases (sections 8.4 and 8.6): the moves to RELEASING, the strike's start and end, rest. -/

namespace Sys2Proof.Machine

/-- A key record sent to RELEASING at `now` for its settle (R144). -/
def KeyRecord.release (r : KeyRecord) (now : Time) (settle : Nat) : KeyRecord :=
  { r with phase := .releasing (after now settle) }

/-- What a performed release does to its key's phase (R134 step 3, R135 step 3): HOLD goes to RELEASING, a running strike is
marked release-after, IDLE and RELEASING stay. -/
def KeyRecord.releasePhase (r : KeyRecord) (now : Time) (settle : Nat) : KeyRecord :=
  match r.phase with
  | .hold => r.release now settle
  | .strike e _ o => { r with phase := .strike e true o }
  | .idle _ | .releasing _ => r

/-- A performed release acts on key k's phase. -/
def State.releasePhase (s : State) (k : Key) : State :=
  s.setKey k ((s.key k).releasePhase s.clock (s.keyCal k).settle)

/-- A key record under a silence notice or a drive loss: STRIKE and HOLD go to RELEASING, the rest stays (R147, R148). -/
def KeyRecord.cutShort (r : KeyRecord) (now : Time) (settle : Nat) : KeyRecord :=
  if r.phase.isSounding then r.release now settle else r

/-- Every sounding key is released and every slot freed (R147, R148). -/
def State.releaseKeys (s : State) : State :=
  { s.mapKeys (fun k r => r.cutShort s.clock (s.keyCal k).settle) with slots := [] }

/-- Every key's owner is cleared (R104, R147). -/
def State.clearOwners (s : State) : State := s.mapKeys (fun _ r => { r with owner := none })

/-- The key is IDLE and rested (R137). -/
def KeyRecord.isRested (r : KeyRecord) : Bool :=
  match r.phase with
  | .idle rested => rested
  | .strike _ _ _ | .hold | .releasing _ => false

/-- A strike at `now` with sound time S and flight F is late: it starts more than the late tolerance after its intended fire
time S - F (R142). -/
def Strike.isLate (st : Strike) (now : Time) : Bool :=
  decide (lateTolerance < elapsed (before st.sound st.flight) now)

/-- A key record as its strike starts (R141, R142, R171). -/
def KeyRecord.startStrike (r : KeyRecord) (st : Strike) (now : Time) : KeyRecord :=
  { r.withHeat (r.strikeHeat st.width) with
    phase := .strike (after now st.width) st.releaseAfter st.owner
    strikeCount := satAdd r.strikeCount 1
    lateCount := if st.isLate now then satAdd r.lateCount 1 else r.lateCount }

/-- The start of a granted strike: slot, key record, counters, LATE and HEAT (R138, R141, R142, R171, R173). -/
def State.startStrike (s : State) (st : Strike) : State :=
  let old := s.key st.key
  let new := old.startStrike st s.clock
  let s := { s.setKey st.key new with
              slots := s.slots ++ [st.key]
              strikes := { s.strikes with
                performed := satAdd s.strikes.performed 1
                late := if st.isLate s.clock then satAdd s.strikes.late 1 else s.strikes.late } }
  let s := if st.isLate s.clock then s.raise .late else s
  if new.thermal = old.thermal then s else s.raise .heat

/-- The drive duty of a key by its phase (R166). -/
def State.keyDuty (s : State) (k : Key) : Nat :=
  match (s.key k).phase with
  | .idle _ | .releasing _ => 0
  | .strike _ _ _ => 1000
  | .hold => appliedHoldDuty (s.key k).thermal (s.keyCal k).holdDuty

end Sys2Proof.Machine
end

