-- ==== Sys2Proof/Machine/Shaping.lean ====
section
/-! DEFINITION. The shaping engine (chapter 5): targets, rates and the tick. -/

namespace Sys2Proof.Machine

/-- A channel level or target from a level step (section 4.3). -/
def levelStep (v : Nat) : Nat := v * 64

/-- The integer part of a channel level, in level steps (section 4.3). -/
def Channel.integerPart (c : Channel) : Nat := c.level / 64

/-- The step table's level for a code (R78). -/
def Shaping.tableLevel (sh : Shaping) (code : Fin 8) : Nat := sh.stepTable[code]

/-- Form the targets of CH0 and CH1 from the table and the step codes held (R78). -/
def Shaping.formTargets (sh : Shaping) : Shaping :=
  { sh with ch0 := { sh.ch0 with target := levelStep (sh.tableLevel sh.bassCode) }
            ch1 := { sh.ch1 with target := levelStep (sh.tableLevel sh.trebleCode) } }

/-- A bass step code received (R79). -/
def Shaping.receiveBass (sh : Shaping) (code : Fin 8) : Shaping :=
  { sh with bassCode := code, ch0 := { sh.ch0 with target := levelStep (sh.tableLevel code) } }

/-- A treble step code received (R79). -/
def Shaping.receiveTreble (sh : Shaping) (code : Fin 8) : Shaping :=
  { sh with trebleCode := code, ch1 := { sh.ch1 with target := levelStep (sh.tableLevel code) } }

/-- The channel target of a merged pedal position (R80). -/
def pedalTarget (position : Nat) : Nat := levelStep (position * 1023 / 127)

/-- The increment of a channel step: the truncated share of the difference, at least 1 in size when the difference is not 0
(R85, steps 2 and 3). -/
def increment (d : Int) (rate : Nat) : Int :=
  let inc := truncDiv (d * rate) 256
  if inc = 0 then (if 0 < d then 1 else if d < 0 then -1 else 0) else inc

/-- One step of a running channel at the chosen rate (R85). -/
def Channel.step (c : Channel) (rate : Nat) : Channel :=
  { c with level := ((c.level : Int) + increment ((c.target : Int) - c.level) rate).toNat }

/-- The rate of an expression channel: rate b while its glide track is open, else rate a (R81). -/
def Channel.glideRate (c : Channel) (glideOpen : Bool) : Nat := if glideOpen then c.rateB else c.rateA

/-- The rate of a pedal channel: rate a while its target is above its level, else rate b (R82). -/
def Channel.directionRate (c : Channel) : Nat := if c.level < c.target then c.rateA else c.rateB

/-- The four channels' steps at one tick: CH0 and CH1 run while the session is PLAYING, CH2 and CH3 always (R84, R86). -/
def Shaping.tick (sh : Shaping) (playing bassGlide trebleGlide : Bool) : Shaping :=
  { sh with
    ch0 := if playing then sh.ch0.step (sh.ch0.glideRate bassGlide) else sh.ch0
    ch1 := if playing then sh.ch1.step (sh.ch1.glideRate trebleGlide) else sh.ch1
    ch2 := sh.ch2.step sh.ch2.directionRate
    ch3 := sh.ch3.step sh.ch3.directionRate }

/-- CH0 and CH1 at ROLL_LOADED and REWOUND: code 0, level and target on the table's level for code 0 (R91). -/
def Shaping.rollStart (sh : Shaping) : Shaping :=
  let v := levelStep (sh.tableLevel 0)
  { sh with bassCode := 0, trebleCode := 0
            ch0 := { sh.ch0 with level := v, target := v }
            ch1 := { sh.ch1 with level := v, target := v } }

/-- ROLL_REMOVED clears the step codes and leaves levels and targets (R92). -/
def Shaping.rollRemoved (sh : Shaping) : Shaping := { sh with bassCode := 0, trebleCode := 0 }

/-- RESET_CORE keeps the step table and the rates (R93). -/
def Shaping.coreReset (sh : Shaping) : Shaping :=
  let zero := fun (c : Channel) => { c with level := 0, target := 0 }
  { ch0 := zero sh.ch0, ch1 := zero sh.ch1, ch2 := zero sh.ch2, ch3 := zero sh.ch3
    bassCode := 0, trebleCode := 0, stepTable := sh.stepTable }

/-- Replace a channel's two rates (R83). -/
def Channel.setRates (c : Channel) (rateA rateB : Nat) : Channel := { c with rateA := rateA, rateB := rateB }

/-- Replace the rates of channel 0..3 (R83). -/
def Shaping.setRates (sh : Shaping) (channel : Fin 4) (rateA rateB : Nat) : Shaping :=
  match channel with
  | 0 => { sh with ch0 := sh.ch0.setRates rateA rateB }
  | 1 => { sh with ch1 := sh.ch1.setRates rateA rateB }
  | 2 => { sh with ch2 := sh.ch2.setRates rateA rateB }
  | 3 => { sh with ch3 := sh.ch3.setRates rateA rateB }

/-- The channel a request's byte names; none (4 or above) is refused with RANGE (R83). -/
def channel? (b : Byte) : Option (Fin 4) := if h : b.toNat < 4 then some ⟨b.toNat, h⟩ else none

end Sys2Proof.Machine
end

