-- ==== Sys2Proof/Machine/Pedals.lean ====
section
/-! DEFINITION. The pedal unit (chapter 9): requests, merge, duty curves and the sostenuto actuator. -/

namespace Sys2Proof.Machine

/-- The roll request a track's level stands for (R151). -/
def requestOf (isOpen : Bool) : Nat := if isOpen then 127 else 0

/-- A merged position of a roll request and a console value (R155). -/
def mergePosition (mode : ShadingMode) (roll console : Nat) : Nat :=
  match mode with
  | .roll => roll
  | .manual => console
  | .blend => max roll console

/-- The merged damper position as R155 gives it now. -/
def State.damperMerge (s : State) : Nat := mergePosition s.console.mode s.pedals.rollDamper s.pedals.consoleDamper

/-- The merged soft position as R155 gives it now. -/
def State.softMerge (s : State) : Nat := mergePosition s.console.mode s.pedals.rollSoft (requestOf s.pedals.consoleSoft)

/-- Form the merged damper position again; a changed one is stored and handed to CH2's target (R80, R156). -/
def State.reformDamper (s : State) : State :=
  let p := s.damperMerge
  if p = s.pedals.mergedDamper then s
  else { s with pedals := { s.pedals with mergedDamper := p }
                shaping := { s.shaping with ch2 := { s.shaping.ch2 with target := pedalTarget p } } }

/-- Form the merged soft position again; a changed one is stored and handed to CH3's target (R80, R156). -/
def State.reformSoft (s : State) : State :=
  let p := s.softMerge
  if p = s.pedals.mergedSoft then s
  else { s with pedals := { s.pedals with mergedSoft := p }
                shaping := { s.shaping with ch3 := { s.shaping.ch3 with target := pedalTarget p } } }

/-- Form both merged positions again (R156). -/
def State.reformMerge (s : State) : State := s.reformDamper.reformSoft

/-- Set both roll requests and form the merge again (R153). -/
def State.setRollRequests (s : State) (damper soft : Nat) : State :=
  ({ s with pedals := { s.pedals with rollDamper := damper, rollSoft := soft } } : State).reformMerge

/-- A performed PEDAL entry sets its pedal's roll request; a changed one re-forms that pedal's merge (R152). -/
def State.setRollRequest (s : State) (p : Pedal) (value : Nat) : State :=
  match p with
  | .damper =>
    if value = s.pedals.rollDamper then s
    else ({ s with pedals := { s.pedals with rollDamper := value } } : State).reformDamper
  | .soft =>
    if value = s.pedals.rollSoft then s
    else ({ s with pedals := { s.pedals with rollSoft := value } } : State).reformSoft

/-- The duty of a pedal curve at a level's integer part (R157). -/
def curveDuty (curve : Vector Nat 5) (x : Nat) : Nat := interpolate curve (x / 256) (x % 256) 256

/-- The damper duty (R157). -/
def State.damperDuty (s : State) : Nat := curveDuty s.calibration.damperCurve s.shaping.ch2.integerPart

/-- The soft duty (R157). -/
def State.softDuty (s : State) : Nat := curveDuty s.calibration.softCurve s.shaping.ch3.integerPart

/-- The sostenuto duty by phase (R159). -/
def State.sostenutoDuty (s : State) : Nat :=
  match s.pedals.sostenuto with
  | .off => 0
  | .pullIn _ => 1000
  | .hold => s.calibration.sostenutoHold

/-- The sostenuto actuator takes a phase. -/
def State.setSostenuto (s : State) (p : Sostenuto) : State := { s with pedals := { s.pedals with sostenuto := p } }

/-- A pull-in begins (R160, R162). -/
def State.startPullIn (s : State) : State := s.setSostenuto (.pullIn (after s.clock pullInTime))

/-- A changed console sostenuto setting acts on the actuator (R160). -/
def State.sostenutoChanged (s : State) (on : Bool) : State :=
  if on then (if s.drive.actEn then s.startPullIn else s) else s.setSostenuto .off

end Sys2Proof.Machine
end

