-- ==== Sys2Proof/Machine/SessionMoves.lean ====
section
/-! DEFINITION. Moves of the session and what they announce: the silence notice (section 4.8), the entries to each state, stall
causes and their ends, and the drive loss (R169). -/

namespace Sys2Proof.Machine

/-! ## The silence notice -/

/-- An entry is a STRIKE. -/
def Entry.isStrike (e : Entry) : Bool :=
  match e.action with
  | .strike _ => true
  | .release _ _ | .takeover _ _ | .pedal _ _ | .endMark => false

/-- The number of STRIKE entries in a list of entries. -/
def strikeEntries (q : List Entry) : Nat := q.countP Entry.isStrike

/-- The action queue is emptied, each STRIKE entry counted as cancelled (R146). -/
def State.flushQueue (s : State) : State :=
  { s with queue := []
           strikes := { s.strikes with cancelled := satAdd s.strikes.cancelled (strikeEntries s.queue) } }

/-- A silence notice: queue, keys and owners, struck keys, and roll pedal requests (R74, R95, R146, R147, R153). -/
def State.silence (s : State) : State :=
  let s := s.flushQueue.releaseKeys.clearOwners
  ({ s with struckKeys := Vector.replicate 88 none } : State).setRollRequests 0 0

/-! ## Changes of session state -/

/-- The session is STARTING or PLAYING. -/
def SessionState.isRunning (st : SessionState) : Bool := st == .starting || st == .playing

/-- The speed monitor at a move out of STARTING and PLAYING: the last ratio is kept (R49). -/
def Speed.idle (m : Speed) : Speed :=
  { m with anchor := none, condition := .unlocked, inBandRun := 0, outBandRun := 0, trim := 0 }

/-- The speed monitor at an entry to STARTING (R49). -/
def Speed.start (m : Speed) : Speed := { m.idle with lastRatio := 0 }

/-- A change of session state: SESSION is raised (R56), the stall-cause set is empty unless the change is within STALLED
(R55), the startup timer stops at a move out of STARTING (R52), the stall timer at one out of PLAYING (R51), and the speed
monitor goes idle at a move out of both (R49). -/
def State.moveSession (s : State) (dest : SessionState) : State :=
  let old := s.session.state
  let s := s.raise .session
  { s with
    session := { s.session with state := dest, causes := CauseSet.empty }
    startupTimer := if old = .starting then none else s.startupTimer
    stallTimer := if old = .playing then none else s.stallTimer
    speed := if old.isRunning && !dest.isRunning then s.speed.idle else s.speed }

/-- Set the last cause (R55). -/
def State.setLastCause (s : State) (c : Option LastCause) : State := { s with session := { s.session with lastCause := c } }

/-- The queue is emptied and a decode in progress ends without effect (R10). -/
def Intake.emptied (i : Intake) : Intake := { i with queue := [], decode := none }

/-- The intake at an entry to RETURNING: OFF and emptied (R3, R18). -/
def Intake.stopped (i : Intake) : Intake := { i.emptied with state := .off }

/-- Entry to RETURNING (R67, R69, R70). -/
def State.enterReturning (s : State) (c : LastCause) : State :=
  let s := ((s.moveSession .returning).setLastCause (some c)).silence
  { s with intake := s.intake.stopped }

/-- Entry to PAUSED (R65, R66, R68). -/
def State.enterPaused (s : State) (c : Option LastCause) : State :=
  ((s.moveSession .paused).setLastCause c).silence

/-- Entry to STALLED with one cause (R59, R63). -/
def State.enterStalled (s : State) (c : StallCause) : State :=
  let s := (s.moveSession .stalled).silence
  { s with session := { s.session with causes := CauseSet.empty.add c } }

/-- Entry to STARTING, with its two tests (R49, R52, R59). -/
def State.enterStarting (s : State) : State :=
  let s := (s.moveSession .starting).silence
  let s := { s with speed := s.speed.start, startupTimer := some (after s.clock startupPeriod) }
  if s.session.endConfirmed then s.enterReturning .endMark
  else if s.tracker.state = .lost then s.enterStalled .tracking
  else s

/-- A block reports a stall cause (R63). -/
def State.reportStall (s : State) (c : StallCause) : State :=
  match s.session.state with
  | .starting | .playing => s.enterStalled c
  | .stalled => { s with session := { s.session with causes := s.session.causes.add c } }
  | .noRoll | .loaded | .paused | .returning => s

/-- A block reports the end of a stall cause (R64). -/
def State.reportStallEnd (s : State) (c : StallCause) : State :=
  if s.session.state = .stalled ∧ s.session.causes.holds c then
    let s := { s with session := { s.session with causes := s.session.causes.remove c } }
    if s.session.causes = CauseSet.empty then s.enterStarting else s
  else s

/-! ## Drive loss -/

/-- A drive loss with the cause it gives the session (R148, R162, R68, R169). -/
def State.driveLoss (s : State) (c : LastCause) : State :=
  let s := { s with drive := { s.drive with actEn := false } }
  let s := s.flushQueue.releaseKeys.setSostenuto .off
  match s.session.state with
  | .starting | .playing | .stalled => s.enterPaused (some c)
  | .noRoll | .loaded | .paused | .returning => s

/-- The effects of a fault edge: latch, ACT_EN, FAULT, drive loss (R168). -/
def State.faultEffects (s : State) : State :=
  let s := { s with drive := { s.drive with faultLatch := true } }
  (s.raise .fault).driveLoss .fault

end Sys2Proof.Machine
end

