-- ==== Sys2Proof/Machine/ActionQueue.lean ====
section
/-! DEFINITION. The action queue (sections 8.1 to 8.3): order, insertion under the capacity rules, performing, and the
arbiter's choice. -/

namespace Sys2Proof.Machine

/-! ## Questions about the queue -/

/-- The strike an entry carries. -/
def Entry.strike? (e : Entry) : Option Strike :=
  match e.action with
  | .strike st => some st
  | .release _ _ | .takeover _ _ | .pedal _ _ | .endMark => none

/-- An entry is a STRIKE for key k with owner t. -/
def Entry.isStrikeOf (e : Entry) (k : Key) (t : Owner) : Bool :=
  match e.strike? with
  | some st => st.key == k && st.owner == t
  | none => false

/-- An entry is a RELEASE, with any owner, for key k (R137). -/
def Entry.isReleaseFor (e : Entry) (k : Key) : Bool :=
  match e.action with
  | .release k' _ | .takeover k' _ => k' == k
  | .strike _ | .pedal _ _ | .endMark => false

/-- A STRIKE entry for key k with owner t stands in the queue. -/
def State.hasStrikeOf (s : State) (k : Key) (t : Owner) : Bool := s.queue.any (fun e => e.isStrikeOf k t)

/-- An entry with its release-after mark set; only a STRIKE has one. -/
def Entry.marked (e : Entry) : Entry :=
  match e.action with
  | .strike st => { e with action := .strike { st with releaseAfter := true } }
  | .release _ _ | .takeover _ _ | .pedal _ _ | .endMark => e

/-! ## Order -/

/-- Place an entry after every entry due not later than it and before every later one (R130). -/
def placeEntry (e : Entry) : List Entry → List Entry
  | [] => [e]
  | x :: xs => if notLater x.due e.due then x :: placeEntry e xs else e :: x :: xs

/-- The better drop candidate of two STRIKE entries: the lower intensity, and of equals the later-inserted (R131, step 1). -/
def dropBetter (best e : Entry) : Entry :=
  match best.strike?, e.strike? with
  | some b, some x =>
    if x.intensity < b.intensity then e
    else if x.intensity = b.intensity ∧ insertedBefore best.seq e.seq then e
    else best
  | _, _ => best

/-- The drop candidate among the queued STRIKE entries (R131, step 1). -/
def dropCandidate (q : List Entry) : Option Entry :=
  match q.filter Entry.isStrike with
  | [] => none
  | e :: es => some (es.foldl dropBetter e)

/-- The earliest-inserted of a list of entries (R134, case 2). -/
def earliestInserted : List Entry → Option Entry
  | [] => none
  | e :: es => some (es.foldl (fun best x => if insertedBefore x.seq best.seq then x else best) e)

/-! ## Performing -/

/-- The owner of key k is cleared if it is t and no STRIKE entry for k with owner t stands in the queue (R104). -/
def State.clearOwnerOf (s : State) (k : Key) (t : Owner) : State :=
  if (s.key k).owner = some t ∧ !s.hasStrikeOf k t then s.setOwner k none else s

/-- A RELEASE entry of a note track or TEST, with insertion sequence `seq` and already out of the queue, is performed (R134). -/
def State.performRelease (s : State) (k : Key) (t : Owner) (seq : BitVec 32) : State :=
  if (s.key k).owner ≠ some t then s
  else
    match earliestInserted (s.queue.filter (fun e => e.isStrikeOf k t && insertedBefore e.seq seq)) with
    | some first => { s with queue := s.queue.map (fun e => if e = first then e.marked else e) }
    | none => (s.releasePhase k).clearOwnerOf k t

/-- A TAKEOVER release with insertion sequence `seq`, already out of the queue, is performed (R135). -/
def State.performTakeover (s : State) (k : Key) (m : Owner) (seq : BitVec 32) : State :=
  let mark := fun (e : Entry) => if e.isStrikeOf k m && insertedBefore e.seq seq then e.marked else e
  let stays := fun (e : Entry) => !(e.action == .release k m && insertedBefore e.seq seq)
  ({ s with queue := (s.queue.map mark).filter stays } : State).releasePhase k

/-- An END entry is performed: the session, which is PLAYING, enters RETURNING (R70, R136). -/
def State.performEnd (s : State) : State :=
  if s.session.state = .playing then s.enterReturning .endMark else s

/-- A RELEASE, PEDAL or END entry, already out of the queue, is performed (R134 to R136). A STRIKE is never performed. -/
def State.perform (s : State) (a : Action) (seq : BitVec 32) : State :=
  match a with
  | .release k t => s.performRelease k t seq
  | .takeover k m => s.performTakeover k m seq
  | .pedal p v => s.setRollRequest p v
  | .endMark => s.performEnd
  | .strike _ => s

/-! ## Insertion -/

/-- A strike is dropped at an insertion: counted, and DROP raised (R131, R132). -/
def State.countDrop (s : State) : State :=
  ({ s with strikes := { s.strikes with dropped := satAdd s.strikes.dropped 1 } } : State).raise .drop

/-- A dropped strike that carries the release-after mark clears its key's owner, if that is its own owner and no other STRIKE
entry for the key with that owner stands in the queue (R104, R131). -/
def State.clearDroppedOwner (s : State) (e : Entry) : State :=
  match e.strike? with
  | some st => if st.releaseAfter then s.clearOwnerOf st.key st.owner else s
  | none => s

/-- The candidate leaves the queue, the new entry joins it, and the candidate is dropped (R131 step 2, R132). -/
def State.replaceEntry (s : State) (candidate e : Entry) : State :=
  (({ s with queue := placeEntry e (s.queue.erase candidate) } : State).countDrop).clearDroppedOwner candidate

/-- The insertion takes its sequence number (R130). -/
def State.takeSeq (s : State) : State := { s with nextSeq := s.nextSeq + 1 }

/-- Insert a STRIKE entry (R130, R131). -/
def State.insertStrike (s : State) (due : Time) (st : Strike) : State :=
  let e : Entry := { due := due, seq := s.nextSeq, action := .strike st }
  let s := s.takeSeq
  if strikeCapacity ≤ strikeEntries s.queue ∨ queueCapacity ≤ s.queue.length then
    match dropCandidate s.queue with
    | none => s.countDrop
    | some c =>
      match c.strike? with
      | some b => if b.intensity < st.intensity then s.replaceEntry c e else s.countDrop
      | none => s.countDrop
  else { s with queue := placeEntry e s.queue }

/-- Insert a RELEASE, PEDAL or END entry (R130, R132). -/
def State.insertOther (s : State) (due : Time) (a : Action) : State :=
  let e : Entry := { due := due, seq := s.nextSeq, action := a }
  let s := s.takeSeq
  if queueCapacity ≤ s.queue.length then
    match dropCandidate s.queue with
    | none => s.perform a e.seq
    | some c => s.replaceEntry c e
  else { s with queue := placeEntry e s.queue }

/-- Room for an entry that is no STRIKE: a full queue gives up its drop candidate, if it holds a STRIKE entry (R132). -/
def State.makeRoom (s : State) : State :=
  if queueCapacity ≤ s.queue.length then
    match dropCandidate s.queue with
    | none => s
    | some c => (({ s with queue := s.queue.erase c } : State).countDrop).clearDroppedOwner c
  else s

/-- Insert a RELEASE entry due now that is performed at once, on the same event: it takes its sequence number and its room, and
what it does is done when the insertion is (R130, R132, R145 step 1). -/
def State.insertPerformed (s : State) (a : Action) : State := s.takeSeq.makeRoom.perform a s.nextSeq

/-! ## Ripeness and the arbiter -/

/-- An entry is ripe (R133). -/
def Entry.ripe (e : Entry) (now : Time) : Bool := reached now e.due

/-- The entry to perform next: the first ripe entry in queue order that is no STRIKE (R133). -/
def State.nextToPerform (s : State) : Option Entry := s.queue.find? (fun e => e.ripe s.clock && !e.isStrike)

/-- Take the next entry to perform out of the queue and perform it, when it is of the kind asked for (R133). -/
def State.performNext (s : State) (kind : Action → Bool) : State :=
  match s.nextToPerform with
  | some e =>
    if kind e.action then ({ s with queue := s.queue.erase e } : State).perform e.action e.seq else s
  | none => s

/-- Split the queue at its first ready STRIKE entry: one that is ripe, whose key is IDLE and rested, and that no RELEASE entry
for the key stands ahead of (R137). `ahead` is the part already passed. -/
def firstReady (s : State) (ahead : List Entry) : List Entry → Option (Entry × Strike)
  | [] => none
  | e :: es =>
    match e.strike? with
    | some st =>
      if e.ripe s.clock && (s.key st.key).isRested && !ahead.any (fun x => x.isReleaseFor st.key) then some (e, st)
      else firstReady s (ahead ++ [e]) es
    | none => firstReady s (ahead ++ [e]) es

/-- The strike the arbiter grants now: the ready entry that stands earliest, while a slot is free (R138). -/
def State.grantable (s : State) : Option (Entry × Strike) :=
  if s.slots.length < slotCount then firstReady s [] s.queue else none

/-- One grant of the arbiter: the entry leaves the queue and its strike starts (R138, R141). -/
def State.grant (s : State) : State :=
  match s.grantable with
  | some (e, st) => ({ s with queue := s.queue.erase e } : State).startStrike st
  | none => s

end Sys2Proof.Machine
end

