-- ==== Sys2Proof/Machine/StrikeComputation.lean ====
section
/-! DEFINITION. The strike computation (section 7.3). -/

namespace Sys2Proof.Machine

/-- The base width W0 of an intensity (R123). -/
def KeyCal.baseWidth (c : KeyCal) (intensity : Nat) : Nat := interpolate c.width (intensity / 16) (intensity % 16) 16

/-- The flight F of an intensity (R123). -/
def KeyCal.flightOf (c : KeyCal) (intensity : Nat) : Nat := interpolate c.flight (intensity / 16) (intensity % 16) 16

/-- The width W: halved while HOT, then clamped (R124). -/
def protectedWidth (t : Thermal) (base : Nat) : Nat := clamp 500 25000 (if t = .hot then base / 2 else base)

/-- The width and flight of a strike on key k at an intensity, as record and condition stand now (R122 to R124). -/
def State.strikeWidth (s : State) (k : Key) (intensity : Nat) : Nat :=
  protectedWidth (s.key k).thermal ((s.keyCal k).baseWidth intensity)

/-- See `strikeWidth`. -/
def State.strikeFlight (s : State) (k : Key) (intensity : Nat) : Nat := (s.keyCal k).flightOf intensity

/-- The lead in hand e of an onset at `onset`, seen at `now` (R125, steps 3 and 4). -/
def leadInHand (now onset : Time) (lookAhead flight : Nat) : Int :=
  (lookAhead : Int) - flight - elapsed onset now

/-- The due time of an onset's strike (R125, step 5). -/
def strikeDue (now onset : Time) (lookAhead flight : Nat) : Time :=
  after now (leadInHand now onset lookAhead flight).toNat

end Sys2Proof.Machine
end

