-- ==== Sys2Proof/Machine/Notes.lean ====
section
/-! DEFINITION. The note interpreter (chapter 6): loudness, key choice, ownership, onsets and offsets. -/

namespace Sys2Proof.Machine

/-- The note track is in the bass (R98, step 1). -/
def isBass (split : Nat) (n : NoteTrack) : Bool := decide (n.val < split)

/-- The roll value: the roll level, with the accent boost while the division's accent is open (R98). -/
def rollValue (level : Nat) (accentOpen : Bool) (boost : Nat) : Nat :=
  if accentOpen then min 1023 (level + boost) else level

/-- The source value by shading mode (R99). -/
def sourceValue (c : Console) (roll lever : Nat) : Nat :=
  match c.mode with
  | .roll => roll
  | .manual => lever
  | .blend => (roll * (256 - c.blendWeight) + lever * c.blendWeight) / 256

/-- The master gain (R100). -/
def gained (v gain : Nat) : Nat := min 1023 (v * gain / 256)

/-- A key number folded into 0..87: one fold is enough for a transpose in -12..+12 (R101). -/
def foldKey (k : Int) : Int := if 87 < k then k - 12 else if k < 0 then k + 12 else k

/-- The key a note track maps to (R101). -/
def mappedKey (n : NoteTrack) (transpose : Int) : Key := Fin.ofNat 88 (foldKey ((n.val : Int) + transpose)).toNat

/-- The key that note track n owns (R101, R104). -/
def State.ownedKey (s : State) (n : NoteTrack) : Option Key := allKeys.find? (fun k => (s.key k).owner == some (.note n))

/-- The key an onset of note track n chooses (R101). -/
def State.chosenKey (s : State) (c : Console) (n : NoteTrack) : Key := (s.ownedKey n).getD (mappedKey n c.transpose)

/-- The value v of an onset after the gain, as levels and accents stand now (R98 to R100). -/
def State.onsetValue (s : State) (t : Timing) (c : Console) (n : NoteTrack) : Nat :=
  let bass := isBass t.split n
  let level := (if bass then s.shaping.ch0 else s.shaping.ch1).integerPart
  let accent := s.trackOpen (if bass then trackBassAccent else trackTrebleAccent)
  let lever := if bass then c.bassLever else c.trebleLever
  gained (sourceValue c (rollValue level accent t.accentBoost) lever) c.masterGain

/-- The intensity of an onset on key k (R102). -/
def State.onsetIntensity (s : State) (t : Timing) (c : Console) (n : NoteTrack) (k : Key) : Nat :=
  max (s.onsetValue t c n / 8) (s.keyCal k).touchFloor

/-- The due time of a takeover release ahead of a strike due at `due` (R105). -/
def takeoverDue (now due : Time) (settle gap : Nat) : Time := laterOf now (before due (settle + gap))

/-- The takeover that the ownership step of R103 needs (R104, R105). -/
def State.takeOver (s : State) (k : Key) (n : NoteTrack) (due : Time) (gap : Nat) : State :=
  match (s.key k).owner with
  | none => s
  | some m =>
    if m = .note n then s
    else s.insertOther (takeoverDue s.clock due (s.keyCal k).settle gap) (.takeover k m)

/-- The strike of an onset of note track n on key k (R103, steps 1 and 3). -/
def State.onsetStrike (s : State) (t : Timing) (c : Console) (n : NoteTrack) (k : Key) (onset : Time) : Strike :=
  let intensity := s.onsetIntensity t c n k
  { key := k, owner := .note n, intensity := intensity, width := s.strikeWidth k intensity,
    flight := s.strikeFlight k intensity, sound := after onset t.lookAhead, releaseAfter := false }

/-- An onset of note track n in PLAYING is scheduled with the settings of its source (R97 to R103, R105). -/
def State.scheduleOnset (s : State) (t : Timing) (c : Console) (n : NoteTrack) (onset : Time) : State :=
  let k := s.chosenKey c n
  let st := s.onsetStrike t c n k onset
  let due := strikeDue s.clock onset t.lookAhead st.flight
  let s := ((s.takeOver k n due t.repeatGap).setOwner k (some (.note n))).insertStrike due st
  { s with struckKeys := s.struckKeys.set n (some k) }

/-- An onset is taken by the session state in force at its arrival (R96). -/
def State.noteOnset (s : State) (t : Timing) (c : Console) (n : NoteTrack) (onset : Time) : State :=
  if s.session.state = .playing then s.scheduleOnset t c n onset else s

/-- A lead limited to the look-ahead (R106, R120, R151). -/
def limitedLead (lead lookAhead : Nat) : Nat := min lead lookAhead

/-- The due time of a release or pedal change seen at `change` (R106, R151). -/
def changeDue (now change : Time) (t : Timing) (lead : Nat) : Time :=
  laterOf now (after change (t.lookAhead - limitedLead lead t.lookAhead))

/-- An offset of note track n (R106). -/
def State.noteOffset (s : State) (t : Timing) (n : NoteTrack) (offset : Time) : State :=
  match s.struckKeys[n] with
  | none => s
  | some k =>
    let s := s.insertOther (changeDue s.clock offset t t.releaseLead) (.release k (.note n))
    { s with struckKeys := s.struckKeys.set n none }

/-- A reported change of the DAMPER or SOFT level (R151). -/
def State.pedalChange (s : State) (t : Timing) (p : Pedal) (isOpen : Bool) (change : Time) : State :=
  if s.session.state = .playing then
    s.insertOther (changeDue s.clock change t t.pedalLead) (.pedal p (requestOf isOpen))
  else s

end Sys2Proof.Machine
end

