-- ==== Sys2Proof/Machine/SpeedMonitor.lean ====
section
/-! DEFINITION. The speed monitor, lock and the watchdogs' timers (chapter 3, R60 to R62). -/

namespace Sys2Proof.Machine

/-- The target rate in lines per second (R43). -/
def Speed.targetRate (m : Speed) : Nat := m.nominalRate * m.tempo / 256

/-- The ratio of a measurement over k lines and T microseconds, stored as at most 65535 (R46). -/
def ratio (k T targetRate : Nat) : Nat := min 65535 (k * 1000000000 / (T * targetRate))

/-- The trim of a ratio (R46). -/
def trimOf (q : Nat) : Int := clampInt (-125) 125 (1000 - (q : Int))

/-- A ratio is in band at a tolerance (R46). -/
def inBand (q tolerance : Nat) : Bool := decide ((1000 - (q : Int)).natAbs ≤ tolerance)

/-! ## Lock -/

/-- Start the stall timer with the period in force (R41, R51). -/
def State.startStallTimer (s : State) : State := { s with stallTimer := some (after s.clock s.timing.stallTimeout) }

/-- Restrike one note track if its detector is OPEN (R61). -/
def State.restrikeTrack (s : State) (n : NoteTrack) : State :=
  if s.trackOpen (noteTrackOf n) then s.noteOnset s.timing s.console n s.clock else s

/-- Restrike every held note in increasing note-track number, with the settings in force at the lock (R61, R97). -/
def State.restrike (s : State) : State := (List.finRange 88).foldl State.restrikeTrack s

/-- The roll pedal requests are loaded from the tracks (R62, R153). -/
def State.loadRollPedals (s : State) : State :=
  s.setRollRequests (requestOf (s.trackOpen trackDamper)) (requestOf (s.trackOpen trackSoft))

/-- Lock: entry to PLAYING (R60). -/
def State.lock (s : State) : State := (s.moveSession .playing).restrike.loadRollPedals.startStallTimer

/-! ## Measurement -/

/-- A judged measurement in STARTING (R47). -/
def State.judgeStarting (s : State) (good : Bool) : State :=
  if good then
    if 3 ≤ s.speed.inBandRun + 1 then
      ({ s with speed := { s.speed with inBandRun := 3, outBandRun := 0, condition := .locked } } : State).lock
    else { s with speed := { s.speed with inBandRun := s.speed.inBandRun + 1 } }
  else { s with speed := { s.speed with inBandRun := 0 } }

/-- A judged measurement in PLAYING (R48). -/
def State.judgePlaying (s : State) (good : Bool) : State :=
  if good then
    if s.speed.condition = .offSpeed then
      ({ s with speed := { s.speed with condition := .locked, outBandRun := 0 } } : State).raise .speed
    else { s with speed := { s.speed with outBandRun := 0 } }
  else
    if s.speed.condition = .offSpeed then s
    else if 4 ≤ s.speed.outBandRun + 1 then
      ({ s with speed := { s.speed with condition := .offSpeed, outBandRun := 0 } } : State).raise .speed
    else { s with speed := { s.speed with outBandRun := s.speed.outBandRun + 1 } }

/-- The monitor's figures after a measurement with ratio q (R46). -/
def Speed.measured (m : Speed) (q tolerance : Nat) : Speed :=
  { m with lastRatio := q, trim := trimOf q
           outOfBand := if inBand q tolerance then m.outOfBand else satAdd m.outOfBand 1 }

/-- A measurement of k lines in T microseconds: discarded by R45, or formed and judged by R46 to R48. The anchor has moved. -/
def State.measure (s : State) (k T : Nat) : State :=
  if T = 0 ∨ 1000000 < T then s
  else
    let q := ratio k T s.speed.targetRate
    let good := inBand q s.timing.speedTolerance
    let s := { s with speed := s.speed.measured q s.timing.speedTolerance }
    match s.session.state with
    | .starting => s.judgeStarting good
    | .playing => s.judgePlaying good
    | .noRoll | .loaded | .paused | .stalled | .returning => s

/-- The monitor takes a line as its anchor (R44). -/
def State.setAnchor (s : State) (m : Mark) : State := { s with speed := { s.speed with anchor := some m } }

/-- The speed monitor deals with an accepted line (R44, R45). Positions are compared as distances from the anchor. -/
def State.monitorLine (s : State) (m : Mark) (opened : Bool) : State :=
  if s.session.state.isRunning then
    match s.speed.anchor with
    | none => s.setAnchor m
    | some a =>
      if opened then s.setAnchor m
      else
        let k := (m.position - a.position).toNat
        if k < 32 then s else (s.setAnchor m).measure k (elapsed a.time m.time)
  else s

/-- The watchdogs deal with an accepted line (R51, R64). -/
def State.watchLine (s : State) : State :=
  match s.session.state with
  | .playing => s.startStallTimer
  | .stalled => s.reportStallEnd .noLines
  | .noRoll | .loaded | .starting | .paused | .returning => s

/-- A changed tempo factor acts on the monitor (R43). -/
def Speed.tempoChanged (m : Speed) (st : SessionState) : Speed :=
  match st with
  | .starting => { m with anchor := none, inBandRun := 0 }
  | .playing => { m with anchor := none, outBandRun := 0 }
  | .noRoll | .loaded | .paused | .stalled | .returning => m

/-- SET_TEMPO's clamped factor is stored; an equal one changes nothing (R43). -/
def State.setTempo (s : State) (factor : Nat) : State :=
  if factor = s.speed.tempo then s
  else { s with speed := { s.speed.tempoChanged s.session.state with tempo := factor } }

end Sys2Proof.Machine
end

