-- ==== Sys2Proof/Machine/ScanIntake.lean ====
section
/-! DEFINITION. The scan intake (chapter 1): taking, checking and accepting a line, and the restart. -/

namespace Sys2Proof.Machine

/-- A scan line's fields as carried by its frame (R1, section 11.2.2). -/
structure CarriedLine where
  index : LineIndex
  left : BitVec 16
  right : BitVec 16
  leftValid : Bool
  rightValid : Bool
  photosites : BitVec 256
  deriving DecidableEq, Repr

/-- An edge as stored: 0..4095 as carried, else 4095 (R1). -/
def storedEdge (carried : BitVec 16) : Nat := if 4095 < carried.toNat then 4095 else carried.toNat

/-- An edge's valid flag as stored: clear for an edge above 4095 (R1). -/
def storedFlag (carried : BitVec 16) (flag : Bool) : Bool := if 4095 < carried.toNat then false else flag

/-- The queue entry of an accepted line (R1, R2, R9). -/
def CarriedLine.stored (c : CarriedLine) (stamp : Time) (position : Position) : Line :=
  { index := c.index, left := storedEdge c.left, right := storedEdge c.right,
    leftValid := storedFlag c.left c.leftValid, rightValid := storedFlag c.right c.rightValid,
    photosites := c.photosites, stamp := stamp, position := position }

/-- A decode of the head line begins when a line is queued and the decoder is free, with the settings in force (R12). -/
def State.beginDecode (s : State) : State :=
  if s.intake.queue ≠ [] ∧ s.intake.decode = none then
    { s with intake := { s.intake with decode := some { begun := s.clock, timing := s.timing, console := s.console } } }
  else s

/-- The intake with an accepted line at its tail: `missing` lines of a gap are counted (R5, R9). -/
def Intake.joined (i : Intake) (line : Line) (missing : Nat) : Intake :=
  { i with queue := i.queue ++ [line]
           expected := some (line.index + 1)
           lastPosition := some line.position
           accepted := satAdd i.accepted 1
           missing := satAdd i.missing missing }

/-- An accepted line joins the queue, a decode begins if the decoder is free, and the line is handed to the speed monitor and
the watchdogs (R5, R12, R15). -/
def State.acceptLine (s : State) (c : CarriedLine) (position : Position) (missing : Nat) (opened : Bool) : State :=
  let line := c.stored s.clock position
  let s := ({ s with intake := s.intake.joined line missing } : State).beginDecode
  (s.monitorLine { position := position, time := line.stamp } opened).watchLine

/-- An out-of-order line halts the intake (R6). -/
def State.haltIntake (s : State) : State :=
  let s := { s with intake := { s.intake with state := .halted, outOfOrder := satAdd s.intake.outOfOrder 1 } }
  (s.raise .intake).reportStall .intakeHalt

/-- A line that finds the queue full is discarded (R7). -/
def State.overrun (s : State) : State :=
  ({ s with intake := { s.intake with overruns := satAdd s.intake.overruns 1 } } : State).raise .intake

/-- A line that meets an intake OFF or HALTED is refused and counted (R4). -/
def State.refuseLine (s : State) : State := { s with intake := { s.intake with refused := satAdd s.intake.refused 1 } }

/-- The continuity check of a line that passed the capacity check (R5, R6). -/
def State.checkLine (s : State) (c : CarriedLine) : State :=
  match s.intake.expected with
  | none => s.acceptLine c s.intake.restartBase 0 true
  | some e =>
    let d := (c.index - e).toNat
    if d < gapLimit then s.acceptLine c (s.intake.lastPosition.getD 0#32 + BitVec.ofNat 32 d + 1) d false
    else s.haltIntake

/-- A SCAN_LINE frame's line is taken (R4). -/
def State.takeLine (s : State) (c : CarriedLine) : State :=
  match s.intake.state with
  | .off | .halted => s.refuseLine
  | .accepting => if intakeCapacity ≤ s.intake.queue.length then s.overrun else s.checkLine c

/-- The intake at INTAKE_RESTART in HALTED or ACCEPTING (R8). -/
def Intake.restarted (i : Intake) : Intake :=
  { i.emptied with state := .accepting
                   expected := none
                   restartBase := (i.lastPosition.map (· + 1)).getD 0#32 }

/-- INTAKE_RESTART (R8). -/
def State.restartIntake (s : State) : State :=
  match s.intake.state with
  | .off => s
  | .accepting | .halted => ({ s with intake := s.intake.restarted } : State).reportStallEnd .intakeHalt

/-- The intake at an entry to LOADED (R3, R18). -/
def Intake.opened (i : Intake) : Intake :=
  { i with state := .accepting, expected := none, restartBase := 0#32, lastPosition := none }

/-- The intake at ROLL_REMOVED (R3, R18). -/
def Intake.removed (i : Intake) : Intake :=
  { i.stopped with expected := none, restartBase := 0#32, lastPosition := none }

end Sys2Proof.Machine
end

