-- ==== Sys2Proof/Machine/RollTracking.lean ====
section
/-! DEFINITION. The roll tracker and the hole detectors (chapter 2): edge judgement, filter, geometry, tracking states, the
onset vote and the close run. -/

namespace Sys2Proof.Machine

/-! ## Edges, filter, geometry -/

/-- The width of a line, which is negative when the edges cross (R19). -/
def Line.paperWidth (l : Line) : Int := (l.right : Int) - l.left

/-- A line has valid edges (R19). -/
def Line.validEdges (l : Line) : Bool :=
  l.leftValid && l.rightValid && decide (3284 ≤ l.paperWidth) && decide (l.paperWidth ≤ 3628)

/-- The centre of a line with valid edges (R19). -/
def Line.centre (l : Line) : Nat := (l.left + l.right) / 2

/-- A filter value moved toward 16 times a measurement by a truncated fraction (R20). -/
def filterMove (value measured divisor : Nat) : Nat := ((value : Int) + truncDiv (16 * (measured : Int) - value) divisor).toNat

/-- The filter after a line with valid edges (R20). -/
def filterAfter (f : Option Filter) (l : Line) : Filter :=
  match f with
  | none => { cf16 := 16 * l.centre, wf16 := 16 * l.paperWidth.toNat }
  | some f => { cf16 := filterMove f.cf16 l.centre 8, wf16 := filterMove f.wf16 l.paperWidth.toNat 32 }

/-- The working centre C, in sixteenths (R20). -/
def workingCentre (f : Option Filter) : Nat := (f.map (fun f => f.cf16 / 16)).getD 2048

/-- The working width W, in sixteenths (R20). -/
def workingWidth (f : Option Filter) : Nat := (f.map (fun f => f.wf16 / 16)).getD 3456

/-- The pitch p, in 1/256 photosite (R21). -/
def pitch (f : Option Filter) : Nat := 512 * workingWidth f / 3456

/-- The centre of track k, in sixteenths (R21). -/
def trackCentre (f : Option Filter) (k : Track) : Int :=
  (workingCentre f : Int) + floorDiv ((2 * (k.val : Int) - 100) * pitch f) 32

/-- The photosite column track k samples (R21). -/
def trackColumn (f : Option Filter) (k : Track) : Int := floorDiv (trackCentre f k + 8) 16

/-- The sample of track k on a line: true is light; a column outside 0..255 reads dark (R21). -/
def sample (f : Option Filter) (l : Line) (k : Track) : Bool :=
  let c := trackColumn f k
  if 0 ≤ c ∧ c ≤ 255 then l.photosites.getLsbD c.toNat else false

/-! ## Tracking states -/

/-- What the tracker reports to the session at a decode's completion. -/
inductive TrackReport where
  | loss
  | regain
  deriving DecidableEq, Repr

/-- What the tracker makes of a decoded line: its own next state, whether the line is sampled, and its report. -/
structure Judged where
  tracker : Tracker
  sampled : Bool
  report : Option TrackReport
  deriving DecidableEq, Repr

/-- An invalid line outside LOST: the invalid run grows, and at 48 the tracker is LOST (R22, R23). -/
def Tracker.invalidLine (t : Tracker) : Judged :=
  if 48 ≤ t.invalidRun + 1 then
    { tracker := { t with state := .lost, invalidRun := 48, validRun := 0 }, sampled := true, report := some .loss }
  else
    let st := if t.state = .unseeded then TrackingState.unseeded else .holding
    { tracker := { t with state := st, invalidRun := t.invalidRun + 1 }, sampled := true, report := none }

/-- A valid line while LOST: the filter moves and the valid run grows, and at 8 tracking is regained (R23, R24). -/
def Tracker.validWhileLost (t : Tracker) (f : Filter) : Judged :=
  if 8 ≤ t.validRun + 1 then
    { tracker := { state := .locked, filter := some f, invalidRun := 0, validRun := 0 }, sampled := true, report := some .regain }
  else
    { tracker := { t with filter := some f, validRun := t.validRun + 1 }, sampled := false, report := none }

/-- The tracker judges a decoded line (R19, R20, R22 to R24). -/
def Tracker.judge (t : Tracker) (l : Line) : Judged :=
  if l.validEdges then
    let f := filterAfter t.filter l
    match t.state with
    | .lost => t.validWhileLost f
    | .unseeded | .locked | .holding =>
      { tracker := { t with state := .locked, filter := some f, invalidRun := 0 }, sampled := true, report := none }
  else
    match t.state with
    | .lost => { tracker := { t with validRun := 0 }, sampled := false, report := none }
    | .unseeded | .locked | .holding => t.invalidLine

/-! ## Hole detectors -/

/-- What a detector reports at a sample: an onset time or an offset time (R32, R33). -/
inductive HoleReport where
  | onset (time : Time)
  | offset (time : Time)
  deriving DecidableEq, Repr

/-- A CANDIDATE detector's sample (R29). -/
def voteSample (first : Mark) (seen count : Nat) (light : Bool) : Detector :=
  let seen := seen + 1
  let count := if light then count + 1 else count
  if 2 ≤ count then .opened first .zero else if 3 ≤ seen then .closed else .candidate first seen count

/-- An OPEN detector's sample on the line of mark m (R30). -/
def openSample (onset : Mark) (dark : DarkRun) (m : Mark) (light : Bool) : Detector :=
  if light then .opened onset .zero
  else
    match dark with
    | .zero => .opened onset (.one m)
    | .one first => .opened onset (.two first)
    | .two _ => .closed

/-- A detector after a sample on the line of mark m (R28 to R30). -/
def Detector.sample (d : Detector) (m : Mark) (light : Bool) : Detector :=
  match d with
  | .closed => if light then .candidate m 1 1 else .closed
  | .candidate first seen count => voteSample first seen count light
  | .opened onset dark => openSample onset dark m light

/-- The mark of the first dark sample of a dark run. -/
def DarkRun.firstDark : DarkRun → Option Mark
  | .zero => none
  | .one m | .two m => some m

/-- What a detector reports when it goes from `d` to `d'` at a sample: an onset with its onset time, an offset with its
first-dark time (R29, R30, R32, R33). -/
def holeReport (d d' : Detector) : Option HoleReport :=
  match d, d' with
  | .candidate _ _ _, .opened onset _ => some (.onset onset.time)
  | .opened _ dark, .closed => dark.firstDark.map (fun m => .offset m.time)
  | _, _ => none

/-- All detectors after a sampled line (R21, R28 to R30). -/
def sampleAll (ds : Vector Detector 101) (f : Option Filter) (l : Line) : Vector Detector 101 :=
  Vector.ofFn fun k => ds[k].sample { position := l.position, time := l.stamp } (sample f l k)

/-- The END detector's hole has run 32 positions at this sampled line (R36); positions are compared as distances from the
onset. -/
def endReached (d : Detector) (position : Position) : Bool :=
  match d with
  | .opened onset _ => decide (31 ≤ (position - onset.position).toNat)
  | .closed | .candidate _ _ _ => false

end Sys2Proof.Machine
end

