-- ==== Sys2Proof/Machine/Decoding.lean ====
section
/-! DEFINITION. The completion of a line decode (R12, R35, R37, R38): the reports of one line, in their order. -/

namespace Sys2Proof.Machine

/-- A note track's report, of the kind asked for, is handed to the note interpreter (R32). -/
def State.handNote (s : State) (d : Decode) (onsets : Bool) (n : NoteTrack) (r : Option HoleReport) : State :=
  match r with
  | some (.onset t) => if onsets then s.noteOnset d.timing d.console n t else s
  | some (.offset t) => if onsets then s else s.noteOffset d.timing n t
  | none => s

/-- The DAMPER or SOFT track's report is handed to the pedal unit (R33, R151). -/
def State.handPedal (s : State) (d : Decode) (p : Pedal) (r : Option HoleReport) : State :=
  match r with
  | some (.onset t) => s.pedalChange d.timing p true t
  | some (.offset t) => s.pedalChange d.timing p false t
  | none => s

/-- Step codes that differ from those before the decode are handed to the shaping engine (R34, R79). -/
def State.handStepCodes (s : State) (bassBefore trebleBefore : Fin 8) : State :=
  let s := if s.bassCode = bassBefore then s else { s with shaping := s.shaping.receiveBass s.bassCode }
  if s.trebleCode = trebleBefore then s else { s with shaping := s.shaping.receiveTreble s.trebleCode }

/-- The end mark is confirmed: the flag is set and the session acts by its state (R37, R69). -/
def State.confirmEnd (s : State) (d : Decode) (stamp : Time) : State :=
  let s := { s with session := { s.session with endConfirmed := true } }
  match s.session.state with
  | .playing => s.insertOther (after stamp (d.timing.lookAhead + endTail)) .endMark
  | .starting => s.enterReturning .endMark
  | .noRoll | .loaded | .paused | .stalled | .returning => s

/-- The detectors take a sampled line and hand on their reports of groups 1 to 3 of R35, in that order. -/
def State.sampleLine (s : State) (d : Decode) (l : Line) : State :=
  let old := s.detectors
  let bassBefore := s.bassCode
  let trebleBefore := s.trebleCode
  let new := sampleAll old s.tracker.filter l
  let report := fun (k : Track) => holeReport old[k] new[k]
  let s := { s with detectors := new }
  let s := s.handPedal d .damper (report trackDamper)
  let s := s.handStepCodes bassBefore trebleBefore
  let s := s.handPedal d .soft (report trackSoft)
  let s := (List.finRange 88).foldl (fun s n => s.handNote d false n (report (noteTrackOf n))) s
  (List.finRange 88).foldl (fun s n => s.handNote d true n (report (noteTrackOf n))) s

/-- The test of the end mark at a sampled line: its confirmation is the last report of the line (R35 group 4, R36, R37). -/
def State.testEnd (s : State) (d : Decode) (l : Line) : State :=
  if endReached s.detectors[trackEnd] l.position then s.confirmEnd d l.stamp else s

/-- The tracker's report to the session, with its TRACKING event (R23, R24). -/
def State.handTracking (s : State) (r : TrackReport) : State :=
  match r with
  | .loss => (s.raise .tracking).reportStall .tracking
  | .regain => (s.raise .tracking).reportStallEnd .tracking

/-- The effects of a decode at its completion (R12, R19 to R38). A tracking report stands before or after groups 1 to 3 of the
detectors' reports of its line by a free value (log entry 4), and before the end-mark confirmation, which is the last report of the
line (R37). -/
def State.applyDecode (s : State) (d : Decode) (l : Line) : State :=
  if s.session.endConfirmed then s
  else
    let j := s.tracker.judge l
    let s := { s with tracker := j.tracker }
    match j.report with
    | none => if j.sampled then (s.sampleLine d l).testEnd d l else s
    | some r =>
      (if Config.trackingReportFirst s.freeCount then (s.handTracking r).sampleLine d l
        else (s.sampleLine d l).handTracking r).testEnd d l

/-- Microseconds since the running decode began; 0 with none running (R12). -/
def State.decodeElapsed (s : State) : Nat := (s.intake.decode.map fun d => elapsed d.begun s.clock).getD 0

/-- The running decode completes: the head line leaves the queue, the effects are applied, and the next line's decode begins
(R12). -/
def State.completeDecode (s : State) : State :=
  match s.intake.decode, s.intake.queue with
  | some d, l :: rest =>
    let s := { s with intake := { s.intake with queue := rest, decode := none } }
    (s.applyDecode d l).beginDecode
  | _, _ => s

end Sys2Proof.Machine
end

