-- ==== Sys2Proof/Machine/StatusReplies.lean ====
section
/-! DEFINITION. The reply payloads that report state (section 11.2.3). -/

namespace Sys2Proof.Machine

/-- The TRANSPORT_STATUS payload, 13 bytes (R50, R17, R25, R183). -/
def State.transportPayload (s : State) : List Byte :=
  [s.session.state.code,
   (if s.runDemand then 1#8 else 0#8) ||| (if s.returnDemand then 2#8 else 0#8),
   BitVec.ofInt 8 s.speed.trim] ++
  leBytes 2 s.speed.lastRatio ++
  [s.speed.condition.code, s.intake.state.code, BitVec.ofNat 8 s.intake.freeRoom, s.tracker.state.code] ++
  leBytes 4 s.intake.rollPosition.toNat

/-- The PERFORMANCE_STATUS payload, 25 bytes (R17, R76, R90, R113, R150, R183). -/
def State.performancePayload (s : State) : List Byte :=
  [s.session.state.code, s.session.causes.code, lastCauseCode s.session.lastCause] ++
  leBytes 4 s.intake.rollPosition.toNat ++
  leBytes 2 s.shaping.ch0.integerPart ++ leBytes 2 s.shaping.ch1.integerPart ++
  leBytes 2 s.shaping.ch2.integerPart ++ leBytes 2 s.shaping.ch3.integerPart ++
  leBytes 2 s.speed.tempo ++
  [BitVec.ofInt 8 s.console.transpose, s.console.mode.code, BitVec.ofNat 8 s.slots.length, BitVec.ofNat 8 s.queue.length] ++
  leBytes 4 s.strikes.late.toNat

/-- The READ_EVENTS payload of a link, 2 bytes (R187). -/
def LinkPort.eventsPayload (p : LinkPort) : List Byte := [p.latch, p.mask]

/-- The READ_KEY_CAL payload of a key, 44 bytes (R117). -/
def State.keyCalPayload (s : State) (k : Key) : List Byte := BitVec.ofNat 8 k.val :: (s.keyCal k).bytes

/-- The READ_KEY_STATE payload of a key, 10 bytes (R150, R175). -/
def State.keyStatePayload (s : State) (k : Key) : List Byte :=
  let r := s.key k
  [BitVec.ofNat 8 k.val, r.phase.code, ownerCode r.owner] ++ leBytes 2 r.heat ++ [r.thermal.code] ++
    leBytes 2 r.strikeCount.toNat ++ leBytes 2 r.lateCount.toNat

/-- The thirteen counters in the order of section 11.2.3 (R184). -/
def State.counters (s : State) : List (BitVec 32) :=
  [s.intake.accepted, s.intake.missing, s.intake.overruns, s.intake.outOfOrder, s.intake.refused,
   s.strikes.performed, s.strikes.late, s.strikes.dropped, s.strikes.cancelled, s.speed.outOfBand,
   s.linkT.discards, s.linkC.discards, s.linkS.discards]

/-- The READ_COUNTERS payload, 52 bytes (R184). -/
def State.countersPayload (s : State) : List Byte := s.counters.flatMap fun c => leBytes 4 c.toNat

end Sys2Proof.Machine
end

