-- ==== Sys2Proof/Machine/LinkCommands.lean ====
section
/-! DEFINITION. The commands of the link protocol: transactions, discards, and the requests permitted on any link
(chapter 11). -/

namespace Sys2Proof.Machine

/-- TRANSACTION_START: the slot's content is fixed as the reply of a new transaction (R176). A select already asserted gives no
assertion (log entry 6). -/
def State.startTransaction (s : State) (l : Link) : State :=
  let p := s.link l
  match p.transaction with
  | .idle => s.setLink l { p with transaction := .inProgress p.slot.bytes }
  | .inProgress _ | .ignored => s

/-- TRANSACTION_START (R176). -/
def execTransactionStart (l : Link) (s : State) : Host.Outcome State Fault Refusal := .next (s.startTransaction l)

/-- FRAME_DISCARD: the transaction ends, the link's discard counter is incremented, and the slot stays (R177, R179). -/
def State.discardFrame (s : State) (l : Link) (f : Frame) : State :=
  if s.ignores l then s.releaseIgnored l
  else
    let s := s.endTransaction l f.bytes.length f.extraBits
    s.setLink l { s.link l with discards := satAdd (s.link l).discards 1 }

/-- FRAME_DISCARD (R179). -/
def execFrameDiscard (l : Link) (f : Frame) (s : State) : Host.Outcome State Fault Refusal := .next (s.discardFrame l f)

/-- SELECT_RELEASE_AFTER_PIN_RESET: the link is ready for its next assertion (R181). -/
def execSelectReleaseAfterPinReset (l : Link) (s : State) : Host.Outcome State Fault Refusal :=
  .next (if s.ignores l then s.releaseIgnored l else s)

/-- A counted frame of an unknown code is answered UNKNOWN and changes nothing else (R177, R178). -/
def State.answerUnknown (s : State) (h : Head) : State :=
  if s.ignores h.link then s.releaseIgnored h.link
  else (s.endTransaction h.link (3 + h.declared.toNat) 0).answer h.link { status := .unknown, tag := h.tag, payload := [] }

/-- UNKNOWN_REQUEST (R177). -/
def execUnknownRequest (h : Head) (_code : Byte) (s : State) : Host.Outcome State Fault Refusal := .next (s.answerUnknown h)

/-- TRANSPORT_STATUS (R183). -/
def execTransportStatus (h : Head) (s : State) : Host.Outcome State Fault Refusal :=
  .next (s.request h onAny 0 fun s => takenWith s s.transportPayload)

/-- PERFORMANCE_STATUS (R183). -/
def execPerformanceStatus (h : Head) (s : State) : Host.Outcome State Fault Refusal :=
  .next (s.request h onAny 0 fun s => takenWith s s.performancePayload)

/-- READ_EVENTS (R187). -/
def execReadEvents (h : Head) (s : State) : Host.Outcome State Fault Refusal :=
  .next (s.request h onAny 0 fun s => takenWith s (s.link h.link).eventsPayload)

/-- Remove a set of kinds from one link's latch (R186). -/
def State.ackEvents (s : State) (l : Link) (kinds : BitVec 8) : State :=
  s.setLink l { s.link l with latch := (s.link l).latch &&& ~~~kinds }

/-- ACK_EVENTS (R186). -/
def execAckEvents (h : Head) (kinds : BitVec 8) (s : State) : Host.Outcome State Fault Refusal :=
  .next (s.request h onAny 1 fun s => taken (s.ackEvents h.link kinds))

/-- Replace one link's mask whole (R187). -/
def State.setMask (s : State) (l : Link) (kinds : BitVec 8) : State := s.setLink l { s.link l with mask := kinds }

/-- SET_EVENT_MASK (R187). -/
def execSetEventMask (h : Head) (kinds : BitVec 8) (s : State) : Host.Outcome State Fault Refusal :=
  .next (s.request h onAny 1 fun s => taken (s.setMask h.link kinds))

end Sys2Proof.Machine
end

