-- ==== Sys2Proof/Machine/TransportCommands.lean ====
section
/-! DEFINITION. The T-link requests (chapters 1 and 4). -/

namespace Sys2Proof.Machine

/-- The line a SCAN_LINE frame carries: flag bit 0 is left-valid, bit 1 right-valid (section 11.2.2). -/
def carriedLine (index left right : BitVec 16) (flags : BitVec 8) (photosites : BitVec 256) : CarriedLine :=
  { index := index, left := left, right := right, leftValid := flags.getLsbD 0, rightValid := flags.getLsbD 1,
    photosites := photosites }

/-- SCAN_LINE (R1, R4): on the T-link with its length it leaves the reply slot unchanged (R178). -/
def execScanLine (h : Head) (index left right : BitVec 16) (flags : BitVec 8) (photosites : BitVec 256) (s : State) :
    Host.Outcome State Fault Refusal :=
  .next (s.request h onT 39 fun s => (s.takeLine (carriedLine index left right flags photosites), none))

/-- The tracker, the detectors and the end flag take their starting values (R26, R27, R39). -/
def State.clearRoll (s : State) : State :=
  { s with tracker := Tracker.initial, detectors := detectorsClosed, session := { s.session with endConfirmed := false } }

/-- The roll starts: the intake is ACCEPTING with its index open, CH0 and CH1 stand on the code-0 level, and tracker,
detectors, speed monitor, timers and struck keys hold their starting values (R3, R26, R27, R53, R91, R114). -/
def State.startRoll (s : State) : State :=
  let s := s.clearRoll
  { s with intake := s.intake.opened, shaping := s.shaping.rollStart, speed := s.speed.idle,
           stallTimer := none, startupTimer := none, struckKeys := Vector.replicate 88 none }

/-- ROLL_LOADED in NO_ROLL (R42, R57). -/
def State.loadRoll (s : State) (rate : Nat) : State :=
  let s := (s.moveSession .loaded).startRoll
  { s with speed := { s.speed with nominalRate := clamp 100 1500 rate } }

/-- ROLL_LOADED (R57). -/
def execRollLoaded (h : Head) (rate : BitVec 16) (s : State) : Host.Outcome State Fault Refusal :=
  .next (s.request h onT 2 fun s =>
    if s.session.state = .noRoll then taken (s.loadRoll rate.toNat) else refusedWith s .busy)

/-- ROLL_REMOVED outside NO_ROLL (R3, R26, R27, R53, R72, R92, R114, R164). -/
def State.removeRoll (s : State) : State :=
  let s := ((s.moveSession .noRoll).setLastCause none).silence.clearRoll
  { s with intake := s.intake.removed, shaping := s.shaping.rollRemoved, speed := s.speed.idle,
           stallTimer := none, startupTimer := none }

/-- ROLL_REMOVED (R72). -/
def execRollRemoved (h : Head) (s : State) : Host.Outcome State Fault Refusal :=
  .next (s.request h onT 0 fun s => taken (if s.session.state = .noRoll then s else s.removeRoll))

/-- REWOUND (R71): the last cause and the nominal rate are kept. -/
def execRewound (h : Head) (s : State) : Host.Outcome State Fault Refusal :=
  .next (s.request h onT 0 fun s =>
    if s.session.state = .returning then taken (s.moveSession .loaded).startRoll else refusedWith s .busy)

/-- INTAKE_RESTART (R8). -/
def execIntakeRestart (h : Head) (s : State) : Host.Outcome State Fault Refusal :=
  .next (s.request h onT 0 fun s => taken s.restartIntake)

end Sys2Proof.Machine
end

