-- ==== Sys2Proof/Machine/ConsoleCommands.lean ====
section
/-! DEFINITION. The C-link requests (chapters 3, 4, 6 and 9). -/

namespace Sys2Proof.Machine

/-- PLAY's checks, in their order; none when it passes (R58). -/
def State.playRefusal (s : State) : Option Status :=
  if s.session.state ≠ .loaded ∧ s.session.state ≠ .paused then some .busy
  else if !s.drive.actEn then some .driveOff
  else if s.intake.state = .halted then some .busy
  else none

/-- PLAY (R58, R59). -/
def execPlay (h : Head) (s : State) : Host.Outcome State Fault Refusal :=
  .next (s.request h onC 0 fun s =>
    match s.playRefusal with
    | some status => refusedWith s status
    | none => taken s.enterStarting)

/-- PAUSE (R66). -/
def execPause (h : Head) (s : State) : Host.Outcome State Fault Refusal :=
  .next (s.request h onC 0 fun s =>
    match s.session.state with
    | .starting | .playing | .stalled => taken (s.enterPaused none)
    | .noRoll | .loaded | .paused | .returning => refusedWith s .busy)

/-- STOP (R67). -/
def execStop (h : Head) (s : State) : Host.Outcome State Fault Refusal :=
  .next (s.request h onC 0 fun s =>
    match s.session.state with
    | .loaded | .starting | .playing | .paused | .stalled => taken (s.enterReturning .stop)
    | .returning => taken s
    | .noRoll => refusedWith s .busy)

/-- SET_TEMPO (R43). -/
def execSetTempo (h : Head) (factor : BitVec 16) (s : State) : Host.Outcome State Fault Refusal :=
  .next (s.request h onC 2 fun s => taken (s.setTempo (clamp 128 512 factor.toNat)))

/-- SET_TRANSPOSE (R109). -/
def execSetTranspose (h : Head) (value : BitVec 8) (s : State) : Host.Outcome State Fault Refusal :=
  .next (s.request h onC 1 fun s =>
    taken { s with console := { s.console with transpose := clampInt (-12) 12 value.toInt } })

/-- SET_SHADING with a mode in range: the three values are stored together, and a changed mode forms the pedal merge again
(R110, R156). -/
def State.setShading (s : State) (mode : ShadingMode) (weight gain : Nat) : State :=
  let changed := mode ≠ s.console.mode
  let s := { s with console := { s.console with
                      mode := mode, blendWeight := clamp 0 256 weight, masterGain := clamp 0 384 gain } }
  if changed then s.reformMerge else s

/-- SET_SHADING (R110). -/
def execSetShading (h : Head) (mode : BitVec 8) (weight gain : BitVec 16) (s : State) : Host.Outcome State Fault Refusal :=
  .next (s.request h onC 5 fun s =>
    match shadingMode? mode with
    | some m => taken (s.setShading m weight.toNat gain.toNat)
    | none => refusedWith s .range)

/-- SET_LEVERS (R111). -/
def execSetLevers (h : Head) (bass treble : BitVec 16) (s : State) : Host.Outcome State Fault Refusal :=
  .next (s.request h onC 4 fun s =>
    taken { s with console := { s.console with
              bassLever := clamp 0 1023 bass.toNat, trebleLever := clamp 0 1023 treble.toNat } })

/-- SET_CONSOLE_PEDALS with settings in range (R154, R156, R160). -/
def State.setConsolePedals (s : State) (damper : Nat) (soft sostenuto : Bool) : State :=
  let changed := sostenuto ≠ s.pedals.consoleSostenuto
  let s := ({ s with pedals := { s.pedals with
                       consoleDamper := clamp 0 127 damper, consoleSoft := soft, consoleSostenuto := sostenuto } } :
              State).reformMerge
  if changed then s.sostenutoChanged sostenuto else s

/-- SET_CONSOLE_PEDALS (R154). -/
def execSetConsolePedals (h : Head) (damper soft sostenuto : BitVec 8) (s : State) : Host.Outcome State Fault Refusal :=
  .next (s.request h onC 3 fun s =>
    match setting? soft, setting? sostenuto with
    | some so, some su => taken (s.setConsolePedals damper.toNat so su)
    | _, _ => refusedWith s .range)

end Sys2Proof.Machine
end

