-- ==== Sys2Proof/Machine/ServiceCommands.lean ====
section
/-! DEFINITION. The S-link requests (chapters 5, 7, 8, 9, 10 and 11) and the two resets. -/

namespace Sys2Proof.Machine

/-! ## Calibration and settings -/

/-- A key calibration record as stored: each field clamped by R116. -/
def storedKeyCal (f : KeyCalFields) : KeyCal :=
  { touchFloor := clamp 0 127 f.touchFloor.toNat
    width := Vector.ofFn fun j => (f.width[j]).toNat
    flight := Vector.ofFn fun j => (f.flight[j]).toNat
    holdDuty := clamp 0 1000 f.holdDuty.toNat
    settle := clamp 5000 100000 f.settle.toNat }

/-- Replace key k's whole calibration record (R116). -/
def State.writeKeyCal (s : State) (k : Key) (c : KeyCal) : State :=
  { s with calibration := { s.calibration with keys := s.calibration.keys.set k c } }

/-- WRITE_KEY_CAL (R116). -/
def execWriteKeyCal (h : Head) (key : BitVec 8) (record : KeyCalFields) (s : State) : Host.Outcome State Fault Refusal :=
  .next (s.request h onS 44 fun s =>
    match key? key with
    | some k => taken (s.writeKeyCal k (storedKeyCal record))
    | none => refusedWith s .range)

/-- READ_KEY_CAL (R117). -/
def execReadKeyCal (h : Head) (key : BitVec 8) (s : State) : Host.Outcome State Fault Refusal :=
  .next (s.request h onS 1 fun s =>
    match key? key with
    | some k => takenWith s (s.keyCalPayload k)
    | none => refusedWith s .range)

/-- WRITE_STEP_TABLE (R78). -/
def execWriteStepTable (h : Head) (levels : Vector (BitVec 16) 8) (s : State) : Host.Outcome State Fault Refusal :=
  .next (s.request h onS 16 fun s =>
    taken { s with shaping :=
              ({ s.shaping with stepTable := Vector.ofFn fun j => clamp 0 1023 (levels[j]).toNat } : Shaping).formTargets })

/-- WRITE_CHANNEL (R83). -/
def execWriteChannel (h : Head) (channel : BitVec 8) (rateA rateB : BitVec 16) (s : State) :
    Host.Outcome State Fault Refusal :=
  .next (s.request h onS 5 fun s =>
    match channel? channel with
    | some c => taken { s with shaping := s.shaping.setRates c (clamp 1 256 rateA.toNat) (clamp 1 256 rateB.toNat) }
    | none => refusedWith s .range)

/-- The five values of a WRITE_PEDAL_CURVE, clamped (R158). -/
def curveValues (values : Vector (BitVec 16) 5) : Vector Nat 5 := Vector.ofFn fun j => clamp 0 1000 (values[j]).toNat

/-- WRITE_PEDAL_CURVE by selector: 0 DAMPER, 1 SOFT, 2 SOSTENUTO, others RANGE (R158, Table 11-5). -/
def State.writeCurve (s : State) (selector : BitVec 8) (values : Vector (BitVec 16) 5) : Taken :=
  if selector = 0#8 then taken { s with calibration := { s.calibration with damperCurve := curveValues values } }
  else if selector = 1#8 then taken { s with calibration := { s.calibration with softCurve := curveValues values } }
  else if selector = 2#8 then
    taken { s with calibration := { s.calibration with sostenutoHold := (curveValues values)[0] } }
  else refusedWith s .range

/-- WRITE_PEDAL_CURVE with a selector other than SOSTENUTO (R158). -/
def execWritePedalCurve (h : Head) (selector : BitVec 8) (values : Vector (BitVec 16) 5) (s : State) :
    Host.Outcome State Fault Refusal :=
  .next (s.request h onS 11 fun s => s.writeCurve selector values)

/-- WRITE_SOSTENUTO_HOLD_DUTY: WRITE_PEDAL_CURVE with selector SOSTENUTO (R158). -/
def execWriteSostenutoHoldDuty (h : Head) (values : Vector (BitVec 16) 5) (s : State) : Host.Outcome State Fault Refusal :=
  .next (s.request h onS 11 fun s => s.writeCurve 2#8 values)

/-- The nine timing settings as stored: each clamped to its range (R119). -/
def storedTiming (f : TimingFields) : Timing :=
  { lookAhead := clamp 20000 500000 f.lookAhead.toNat
    releaseLead := clamp 0 500000 f.releaseLead.toNat
    pedalLead := clamp 0 500000 f.pedalLead.toNat
    split := clamp 1 87 f.split.toNat
    accentBoost := clamp 0 255 f.accentBoost.toNat
    repeatGap := clamp 1000 50000 f.repeatGap.toNat
    stallTimeout := clamp 20000 500000 f.stallTimeout.toNat
    speedTolerance := clamp 5 100 f.speedTolerance.toNat
    expressionTick := clamp 1000 20000 f.expressionTick.toNat }

/-- SET_TIMING (R119). -/
def execSetTiming (h : Head) (fields : TimingFields) (s : State) : Host.Outcome State Fault Refusal :=
  .next (s.request h onS 23 fun s =>
    match s.session.state with
    | .starting | .playing | .stalled => refusedWith s .busy
    | .noRoll | .loaded | .paused | .returning => taken { s with timing := storedTiming fields })

/-! ## DRIVE -/

/-- The actuator is enabled: latch cleared, ACT_EN asserted, and a sostenuto held on is pulled in (R162, R167, R170). -/
def State.enableDrive (s : State) : State :=
  let s := { s with drive := { s.drive with actEn := true, faultLatch := false } }
  if s.pedals.consoleSostenuto then s.startPullIn else s

/-- DRIVE by its value: 0 disable, 1 enable, others RANGE (R167, Table 11-5). -/
def State.driveRequest (s : State) (value : BitVec 8) : Taken :=
  if value = 0#8 then taken (s.driveLoss .driveOff)
  else if value = 1#8 then
    if s.drive.faultInput then refusedWith s .driveOff
    else taken (if s.drive.actEn then s else s.enableDrive)
  else refusedWith s .range

/-- DRIVE_ENABLE (R167, R170). -/
def execDriveEnable (h : Head) (value : BitVec 8) (s : State) : Host.Outcome State Fault Refusal :=
  .next (s.request h onS 1 fun s => s.driveRequest value)

/-- DRIVE_DISABLE (R167, R169). -/
def execDriveDisable (h : Head) (s : State) : Host.Outcome State Fault Refusal :=
  .next (s.request h onS 1 fun s => s.driveRequest 0#8)

/-! ## Test strikes and key state -/

/-- TEST_STRIKE's checks, in their order (R75): the key, or the refusal. -/
def State.testStrikeCheck (s : State) (key : BitVec 8) : Except Status Key :=
  if s.session.state ≠ .noRoll ∧ s.session.state ≠ .loaded then .error .busy
  else if !s.drive.actEn then .error .driveOff
  else match key? key with
    | some k => .ok k
    | none => .error .range

/-- The strike of a TEST_STRIKE on key k at a clamped intensity (R126, R145 step 3). -/
def State.testStrikeOf (s : State) (k : Key) (intensity : Nat) : Strike :=
  let flight := s.strikeFlight k intensity
  { key := k, owner := .test, intensity := intensity, width := s.strikeWidth k intensity, flight := flight,
    sound := after s.clock flight, releaseAfter := false }

/-- The takeover release of a TEST_STRIKE, when the key has an owner: inserted due now, and performed at once by R135 (R145,
step 1). -/
def State.testTakeover (s : State) (k : Key) : State :=
  match (s.key k).owner with
  | none => s
  | some m => s.insertPerformed (.takeover k m)

/-- An accepted TEST_STRIKE's entries (R145). -/
def State.testStrike (s : State) (k : Key) (intensity holdMs : Nat) : State :=
  let st := s.testStrikeOf k (clamp 0 127 intensity)
  let s := ((s.testTakeover k).setOwner k (some .test)).insertStrike s.clock st
  s.insertOther (after s.clock (st.width + 1000 * clamp 0 2000 holdMs)) (.release k .test)

/-- TEST_STRIKE (R75, R145). -/
def execTestStrike (h : Head) (key intensity : BitVec 8) (holdMs : BitVec 16) (s : State) : Host.Outcome State Fault Refusal :=
  .next (s.request h onS 4 fun s =>
    match s.testStrikeCheck key with
    | .ok k => taken (s.testStrike k intensity.toNat holdMs.toNat)
    | .error status => refusedWith s status)

/-- READ_KEY_STATE (R150). -/
def execReadKeyState (h : Head) (key : BitVec 8) (s : State) : Host.Outcome State Fault Refusal :=
  .next (s.request h onS 1 fun s =>
    match key? key with
    | some k => takenWith s (s.keyStatePayload k)
    | none => refusedWith s .range)

/-- READ_COUNTERS (R184). -/
def execReadCounters (h : Head) (s : State) : Host.Outcome State Fault Refusal :=
  .next (s.request h onS 0 fun s => takenWith s s.countersPayload)

/-! ## Resets -/

/-- A link under RESET_CORE: slot, latch, mask and discard counter are reset, a transaction in progress goes on (R181, R190
step 2). -/
def LinkPort.coreReset (p : LinkPort) : LinkPort :=
  { LinkPort.initial with transaction := p.transaction, lastOut := p.lastOut }

/-- A link under a pin reset: all is reset, and a select still asserted is ignored until its release (R181, R189). -/
def LinkPort.pinReset (p : LinkPort) : LinkPort :=
  { LinkPort.initial with transaction := if p.transaction = .idle then .idle else .ignored }

/-- A fault input found active after a reset counts as a fault edge (R168, R189, R190 step 3). -/
def State.faultAtReset (s : State) : State := if s.drive.faultInput then s.faultEffects else s

/-- RESET_CORE's steps 1 to 3 (R190): what is kept stands, all else takes its pin-reset value, by the rule of each block.
DESIGN CHOICE (log entry 21): the last ratio becomes 0, as R53's table and R190 have it, also from STARTING and PLAYING, where
R49 says of the move to the state after RESET_CORE that the last ratio keeps its value. -/
def State.coreReset (s : State) : State :=
  ({ State.reset with
      clock := s.clock
      linkT := s.linkT.coreReset
      linkC := s.linkC.coreReset
      linkS := s.linkS.coreReset
      shaping := s.shaping.coreReset
      expressionDeadline := after s.clock s.timing.expressionTick
      calibration := s.calibration
      timing := s.timing
      keys := Vector.replicate 88 (KeyRecord.atReset s.clock)
      drive := { s.drive with actEn := false, faultLatch := false }
      frameDeadline := s.frameDeadline
      thermalDeadline := after s.clock thermalPeriod
      freeCount := s.freeCount
      pending := s.pending } : State).faultAtReset

/-- RESET_CORE (R190); its reply is placed after the reset (step 4). -/
def execResetCore (h : Head) (s : State) : Host.Outcome State Fault Refusal :=
  .next (s.request h onS 0 fun s => taken s.coreReset)

/-- The part at the release of RST_N: every block in its pin-reset state; the input pins (the selects and FAULT_N) are as they
stand, and the commands outside go on waiting (R189). -/
def State.pinReset (s : State) : State :=
  ({ State.reset with
      linkT := s.linkT.pinReset
      linkC := s.linkC.pinReset
      linkS := s.linkS.pinReset
      drive := { Drive.initial with faultInput := s.drive.faultInput }
      freeCount := s.freeCount
      pending := s.pending } : State).faultAtReset

/-- PIN_RESET (R189). -/
def execPinReset (s : State) : Host.Outcome State Fault Refusal := .next s.pinReset

end Sys2Proof.Machine
end

