-- ==== Sys2Proof/Machine/TimedCommands.lean ====
section
/-! DEFINITION. The events of the fault input and of the part's own timers. An event whose condition does not hold does not
happen: its command changes nothing (log entry 6). -/

namespace Sys2Proof.Machine

/-! ## The fault input -/

/-- FAULT_EDGE: the input goes from inactive to active (R168). -/
def execFaultEdge (s : State) : Host.Outcome State Fault Refusal :=
  .next (if s.drive.faultInput then s
    else ({ s with drive := { s.drive with faultInput := true } } : State).faultEffects)

/-- FAULT_INPUT_RELEASE: the input goes inactive (R168). -/
def execFaultInputRelease (s : State) : Host.Outcome State Fault Refusal :=
  .next { s with drive := { s.drive with faultInput := false } }

/-! ## Decode and watchdogs -/

/-- DECODE_COMPLETION of the running decode, which completes later than it begins (R12). At the moment at which the decode began,
and with none running, no completion occurs (log entry 6). -/
def execDecodeCompletion (s : State) : Host.Outcome State Fault Refusal :=
  .next (if s.decodeElapsed = 0 then s else s.completeDecode)

/-- A timer is running and its deadline is reached (R41). -/
def timerExpired (now : Time) (timer : Option Time) : Bool := (timer.map (reached now)).getD false

/-- STALL_TIMER_EXPIRY: the timer stops and NO_LINES is reported (R41, R51). -/
def execStallTimerExpiry (s : State) : Host.Outcome State Fault Refusal :=
  .next (if timerExpired s.clock s.stallTimer then ({ s with stallTimer := none } : State).reportStall .noLines else s)

/-- The failed start is reported: a session in STARTING enters PAUSED (R52, R65). -/
def State.startFailed (s : State) : State :=
  if s.session.state = .starting then s.enterPaused (some .startFailed) else s

/-- STARTUP_TIMER_EXPIRY: the timer stops and the failed start is reported (R41, R52, R65). -/
def execStartupTimerExpiry (s : State) : Host.Outcome State Fault Refusal :=
  .next (if timerExpired s.clock s.startupTimer then ({ s with startupTimer := none } : State).startFailed else s)

/-! ## Ticks and frames -/

/-- The work of one expression tick, and its next deadline (R81 to R86). -/
def State.expressionTick (s : State) : State :=
  { s with
    shaping := s.shaping.tick (s.session.state == .playing) (s.trackOpen trackBassGlide) (s.trackOpen trackTrebleGlide)
    expressionDeadline := after s.expressionDeadline s.timing.expressionTick }

/-- EXPRESSION_TICK (R84, R85). -/
def execExpressionTick (s : State) : Host.Outcome State Fault Refusal :=
  .next (if reached s.clock s.expressionDeadline then s.expressionTick else s)

/-- Some key changes its thermal condition at this thermal tick. -/
def State.heatChanges (s : State) : Bool :=
  allKeys.any fun k => ((s.key k).thermalTick (s.keyCal k).holdDuty).thermal != (s.key k).thermal

/-- The work of one thermal tick on every key, HEAT for a changed condition, and the next deadline (R172, R173). -/
def State.thermalTick (s : State) : State :=
  let changed := s.heatChanges
  let s := { s.mapKeys (fun k r => r.thermalTick (s.keyCal k).holdDuty) with
              thermalDeadline := after s.thermalDeadline thermalPeriod }
  if changed then s.raise .heat else s

/-- THERMAL_TICK (R172). -/
def execThermalTick (s : State) : Host.Outcome State Fault Refusal :=
  .next (if reached s.clock s.thermalDeadline then s.thermalTick else s)

/-- The duty an output takes from its owner: 0..87 keys, 88 damper, 89 soft, 90 sostenuto (R166). -/
def State.ownerDuty (s : State) (i : Fin 91) : Nat :=
  if h : i.val < 88 then s.keyDuty ⟨i.val, h⟩
  else if i.val = 88 then s.damperDuty
  else if i.val = 89 then s.softDuty
  else s.sostenutoDuty

/-- The duties taken at a frame boundary: 0 for every output while ACT_EN is deasserted (R166). -/
def State.takeDuties (s : State) : Vector Nat 91 := Vector.ofFn fun i => if s.drive.actEn then s.ownerDuty i else 0

/-- The work of one frame boundary, and the next boundary (R165, R166). -/
def State.frameBoundary (s : State) : State :=
  { s with drive := { s.drive with duties := s.takeDuties }, frameDeadline := after s.frameDeadline framePeriod }

/-- PWM_FRAME_BOUNDARY (R166). -/
def execPwmFrameBoundary (s : State) : Host.Outcome State Fault Refusal :=
  .next (if reached s.clock s.frameDeadline then s.frameBoundary else s)

/-! ## Action queue entries -/

/-- The kind of entry RELEASE_ENTRY_PERFORM performs. -/
def Action.isRelease : Action → Bool
  | .release _ _ => true
  | .strike _ | .takeover _ _ | .pedal _ _ | .endMark => false

/-- The kind of entry TAKEOVER_RELEASE_PERFORM performs. -/
def Action.isTakeover : Action → Bool
  | .takeover _ _ => true
  | .strike _ | .release _ _ | .pedal _ _ | .endMark => false

/-- The kind of entry PEDAL_ENTRY_PERFORM performs. -/
def Action.isPedal : Action → Bool
  | .pedal _ _ => true
  | .strike _ | .release _ _ | .takeover _ _ | .endMark => false

/-- The kind of entry END_ENTRY_PERFORM performs. -/
def Action.isEnd : Action → Bool
  | .endMark => true
  | .strike _ | .release _ _ | .takeover _ _ | .pedal _ _ => false

/-- RELEASE_ENTRY_PERFORM (R133, R134). -/
def execReleaseEntryPerform (s : State) : Host.Outcome State Fault Refusal := .next (s.performNext Action.isRelease)

/-- TAKEOVER_RELEASE_PERFORM (R133, R135). -/
def execTakeoverReleasePerform (s : State) : Host.Outcome State Fault Refusal := .next (s.performNext Action.isTakeover)

/-- PEDAL_ENTRY_PERFORM (R133, R152). -/
def execPedalEntryPerform (s : State) : Host.Outcome State Fault Refusal := .next (s.performNext Action.isPedal)

/-- END_ENTRY_PERFORM (R70, R133). -/
def execEndEntryPerform (s : State) : Host.Outcome State Fault Refusal := .next (s.performNext Action.isEnd)

/-- STRIKE_START: one grant of the arbiter (R138, R141). -/
def execStrikeStart (s : State) : Host.Outcome State Fault Refusal := .next s.grant

/-! ## Keys and the sostenuto -/

/-- A STRIKE phase ends: its slot is freed, and the key goes to HOLD, or to RELEASING if marked (R143, R144). -/
def State.endStrike (s : State) (k : Key) (releaseAfter : Bool) (strikeOwner : Owner) : State :=
  let s := { s with slots := s.slots.erase k }
  if releaseAfter then (s.setKey k ((s.key k).release s.clock (s.keyCal k).settle)).clearOwnerOf k strikeOwner
  else s.setKey k { s.key k with phase := .hold }

/-- STRIKE_END of key k (R143). -/
def execStrikeEnd (k : Key) (s : State) : Host.Outcome State Fault Refusal :=
  .next (match (s.key k).phase with
    | .strike e releaseAfter o => if reached s.clock e then s.endStrike k releaseAfter o else s
    | .idle _ | .hold | .releasing _ => s)

/-- SETTLE_END of key k: IDLE, not rested, idle since the phase end time (R144). -/
def execSettleEnd (k : Key) (s : State) : Host.Outcome State Fault Refusal :=
  .next (match (s.key k).phase with
    | .releasing e => if reached s.clock e then s.setKey k { s.key k with phase := .idle false, idleSince := e } else s
    | .idle _ | .hold | .strike _ _ _ => s)

/-- The key has been idle for the repeat gap (R144). -/
def State.gapOver (s : State) (k : Key) : Bool := decide (s.timing.repeatGap ≤ elapsed (s.key k).idleSince s.clock)

/-- KEY_RESTED of key k (R144). -/
def execKeyRested (k : Key) (s : State) : Host.Outcome State Fault Refusal :=
  .next (match (s.key k).phase with
    | .idle _ => if s.gapOver k then s.setKey k { s.key k with phase := .idle true } else s
    | .hold | .strike _ _ _ | .releasing _ => s)

/-- PULL_IN_END: the actuator goes to HOLD (R161). -/
def execPullInEnd (s : State) : Host.Outcome State Fault Refusal :=
  .next (match s.pedals.sostenuto with
    | .pullIn e => if reached s.clock e then s.setSostenuto .hold else s
    | .off | .hold => s)

end Sys2Proof.Machine
end

