-- ==== Sys2Proof/Machine/Autonomy.lean ====
section
/-! DEFINITION. The part's own events: which of them fall due at a moment, and the choice among them (section 3.3 of
00_scope.md). Machine/Step.lean takes them while no command waits. -/

namespace Sys2Proof.Machine

/-- An event in a list when its condition holds. -/
def whenDue (due : Bool) (c : Instr) : List Instr := if due then [c] else []

/-- A running decode may complete now: later than it began, at the free value's choice, and by 120 µs at the latest (R12, log
entry 3). -/
def State.decodeDue (s : State) : Bool :=
  if s.decodeElapsed = 0 then false
  else if decodeLimit ≤ s.decodeElapsed then true
  else Config.decodeEnds s.freeCount

/-- The event of key k that falls due now: the end of its STRIKE, the end of its settle, or its rest (R143, R144). -/
def State.keyEvents (s : State) (k : Key) : List Instr :=
  match (s.key k).phase with
  | .strike e _ _ => whenDue (reached s.clock e) (.strikeEnd k)
  | .releasing e => whenDue (reached s.clock e) (.settleEnd k)
  | .idle rested => whenDue (!rested && s.gapOver k) (.keyRested k)
  | .hold => []

/-- The sostenuto's pull-in end falls due now (R161). -/
def State.pullInDue (s : State) : Bool :=
  match s.pedals.sostenuto with
  | .pullIn e => reached s.clock e
  | .off | .hold => false

/-- The performing of the next ripe entry that is no STRIKE (R133). -/
def State.performEvents (s : State) : List Instr :=
  match s.nextToPerform with
  | none => []
  | some e =>
    match e.action with
    | .release _ _ => [.releaseEntryPerform]
    | .takeover _ _ => [.takeoverReleasePerform]
    | .pedal _ _ => [.pedalEntryPerform]
    | .endMark => [.endEntryPerform]
    | .strike _ => []

/-- The part's own events that fall due at this moment. -/
def State.dueEvents (s : State) : List Instr :=
  whenDue (reached s.clock s.frameDeadline) .pwmFrameBoundary ++
  whenDue (reached s.clock s.expressionDeadline) .expressionTick ++
  whenDue (reached s.clock s.thermalDeadline) .thermalTick ++
  whenDue (timerExpired s.clock s.stallTimer) .stallTimerExpiry ++
  whenDue (timerExpired s.clock s.startupTimer) .startupTimerExpiry ++
  whenDue s.decodeDue .decodeCompletion ++
  whenDue s.pullInDue .pullInEnd ++
  allKeys.flatMap s.keyEvents ++
  s.performEvents ++
  whenDue s.grantable.isSome .strikeStart

/-- One of the events due: the only one, or the one the free value names (log entry 2). -/
def chooseEvent (n : Nat) : List Instr → Option Instr
  | [] => none
  | [c] => some c
  | c :: d :: rest => some ((c :: d :: rest).getD (Config.eventChoice n % (rest.length + 2)) c)

/-- The event the part takes now of its own, if any is due. -/
def State.ownEvent (s : State) : Option Instr := chooseEvent s.freeCount s.dueEvents

/-- One microsecond passes on the score clock (R40). -/
def State.microsecond (s : State) : State := { s with clock := s.clock + 1, freeCount := s.freeCount + 1 }

/-- The next free value is drawn for the choice of an event. -/
def State.drawn (s : State) : State := { s with freeCount := s.freeCount + 1 }

end Sys2Proof.Machine
end

