-- ==== Sys2Proof/Machine/Dispatch.lean ====
section
/-! DEFINITION. Which meaning each command has: one arm per constructor of Instr, each one direct call. -/

namespace Sys2Proof.Machine

def exec (i : Instr) (s : State) : Host.Outcome State Fault Refusal :=
  match i with
  | .pinReset => Sys2Proof.Machine.execPinReset s
  | .transactionStart l => Sys2Proof.Machine.execTransactionStart l s
  | .frameDiscard l f => Sys2Proof.Machine.execFrameDiscard l f s
  | .unknownRequest h code => Sys2Proof.Machine.execUnknownRequest h code s
  | .transportStatus h => Sys2Proof.Machine.execTransportStatus h s
  | .performanceStatus h => Sys2Proof.Machine.execPerformanceStatus h s
  | .readEvents h => Sys2Proof.Machine.execReadEvents h s
  | .ackEvents h kinds => Sys2Proof.Machine.execAckEvents h kinds s
  | .setEventMask h kinds => Sys2Proof.Machine.execSetEventMask h kinds s
  | .scanLine h index left right flags photosites => Sys2Proof.Machine.execScanLine h index left right flags photosites s
  | .rollLoaded h rate => Sys2Proof.Machine.execRollLoaded h rate s
  | .rollRemoved h => Sys2Proof.Machine.execRollRemoved h s
  | .rewound h => Sys2Proof.Machine.execRewound h s
  | .intakeRestart h => Sys2Proof.Machine.execIntakeRestart h s
  | .play h => Sys2Proof.Machine.execPlay h s
  | .pause h => Sys2Proof.Machine.execPause h s
  | .stop h => Sys2Proof.Machine.execStop h s
  | .setTempo h factor => Sys2Proof.Machine.execSetTempo h factor s
  | .setTranspose h value => Sys2Proof.Machine.execSetTranspose h value s
  | .setShading h mode weight gain => Sys2Proof.Machine.execSetShading h mode weight gain s
  | .setLevers h bass treble => Sys2Proof.Machine.execSetLevers h bass treble s
  | .setConsolePedals h damper soft sostenuto => Sys2Proof.Machine.execSetConsolePedals h damper soft sostenuto s
  | .writeKeyCal h key record => Sys2Proof.Machine.execWriteKeyCal h key record s
  | .readKeyCal h key => Sys2Proof.Machine.execReadKeyCal h key s
  | .writeStepTable h levels => Sys2Proof.Machine.execWriteStepTable h levels s
  | .writeChannel h channel rateA rateB => Sys2Proof.Machine.execWriteChannel h channel rateA rateB s
  | .writePedalCurve h selector values => Sys2Proof.Machine.execWritePedalCurve h selector values s
  | .writeSostenutoHoldDuty h values => Sys2Proof.Machine.execWriteSostenutoHoldDuty h values s
  | .setTiming h fields => Sys2Proof.Machine.execSetTiming h fields s
  | .driveEnable h value => Sys2Proof.Machine.execDriveEnable h value s
  | .driveDisable h => Sys2Proof.Machine.execDriveDisable h s
  | .testStrike h key intensity holdMs => Sys2Proof.Machine.execTestStrike h key intensity holdMs s
  | .readKeyState h key => Sys2Proof.Machine.execReadKeyState h key s
  | .readCounters h => Sys2Proof.Machine.execReadCounters h s
  | .resetCore h => Sys2Proof.Machine.execResetCore h s
  | .faultEdge => Sys2Proof.Machine.execFaultEdge s
  | .faultInputRelease => Sys2Proof.Machine.execFaultInputRelease s
  | .decodeCompletion => Sys2Proof.Machine.execDecodeCompletion s
  | .stallTimerExpiry => Sys2Proof.Machine.execStallTimerExpiry s
  | .startupTimerExpiry => Sys2Proof.Machine.execStartupTimerExpiry s
  | .expressionTick => Sys2Proof.Machine.execExpressionTick s
  | .thermalTick => Sys2Proof.Machine.execThermalTick s
  | .pwmFrameBoundary => Sys2Proof.Machine.execPwmFrameBoundary s
  | .releaseEntryPerform => Sys2Proof.Machine.execReleaseEntryPerform s
  | .takeoverReleasePerform => Sys2Proof.Machine.execTakeoverReleasePerform s
  | .pedalEntryPerform => Sys2Proof.Machine.execPedalEntryPerform s
  | .endEntryPerform => Sys2Proof.Machine.execEndEntryPerform s
  | .strikeStart => Sys2Proof.Machine.execStrikeStart s
  | .strikeEnd k => Sys2Proof.Machine.execStrikeEnd k s
  | .settleEnd k => Sys2Proof.Machine.execSettleEnd k s
  | .keyRested k => Sys2Proof.Machine.execKeyRested k s
  | .pullInEnd => Sys2Proof.Machine.execPullInEnd s
  | .selectReleaseAfterPinReset l => Sys2Proof.Machine.execSelectReleaseAfterPinReset l s

end Sys2Proof.Machine
end

