-- ==== Sys2Proof/Machine/Step.lean ====
section
/-! DEFINITION. One step of the part, and how a command word is put in front of it. -/

namespace Sys2Proof.Machine

/-- One step while no command waits: an event of the part's own that is due is taken; else one microsecond passes (log
entry 2). -/
def idleStep (s : State) : Host.Outcome State Fault Refusal :=
  match s.ownEvent with
  | some c => exec c s.drawn
  | none => .next s.microsecond

/-- One step: the command at the front of the queue is taken out and executed (log entry 1). -/
def step (s : State) : Host.Outcome State Fault Refusal :=
  match s.pending with
  | c :: rest => exec c { s with pending := rest }
  | [] => idleStep s

/-- The state with the command that a table word spells at the front of its queue. -/
def State.withFetchWord (s : State) (nbits w : Nat) : State :=
  match decodeTableWord nbits w with
  | some c => { s with pending := c :: s.pending }
  | none => s

end Sys2Proof.Machine
end

