-- ==== Sys2Proof/Safety.lean ====
section
/-! DEFINITION. The terms the statements use: Table 11-2, when a request is taken, what a reply and a raised event do to the
links, what a silence entry does, and the invariants of the state. -/

namespace Sys2Proof.Machine

/-! ## Requests and replies (chapter 11) -/

/-- A row of Table 11-2: code, links, request payload bytes. -/
structure RequestRow where
  code : Byte
  links : List Link
  length : Nat
  deriving DecidableEq, Repr

/-- Table 11-2. -/
def requestTable : List RequestRow :=
  [⟨0x01#8, [.T, .C, .S], 0⟩, ⟨0x02#8, [.T, .C, .S], 0⟩, ⟨0x03#8, [.T, .C, .S], 0⟩, ⟨0x04#8, [.T, .C, .S], 1⟩,
   ⟨0x05#8, [.T, .C, .S], 1⟩, ⟨0x10#8, [.T], 39⟩, ⟨0x11#8, [.T], 2⟩, ⟨0x12#8, [.T], 0⟩, ⟨0x13#8, [.T], 0⟩, ⟨0x14#8, [.T], 0⟩,
   ⟨0x20#8, [.C], 0⟩, ⟨0x21#8, [.C], 0⟩, ⟨0x22#8, [.C], 0⟩, ⟨0x23#8, [.C], 2⟩, ⟨0x24#8, [.C], 1⟩, ⟨0x25#8, [.C], 5⟩,
   ⟨0x26#8, [.C], 4⟩, ⟨0x27#8, [.C], 3⟩] ++
  [⟨0x30#8, [.S], 44⟩, ⟨0x31#8, [.S], 1⟩, ⟨0x32#8, [.S], 16⟩, ⟨0x33#8, [.S], 5⟩, ⟨0x34#8, [.S], 11⟩, ⟨0x35#8, [.S], 23⟩,
   ⟨0x36#8, [.S], 1⟩, ⟨0x37#8, [.S], 4⟩, ⟨0x38#8, [.S], 1⟩, ⟨0x39#8, [.S], 0⟩, ⟨0x3A#8, [.S], 0⟩]

/-- The row of Table 11-2 a command's frame carries the code of. -/
def requestRow (i : Instr) : Option RequestRow :=
  (requestCode i).bind fun code => requestTable.find? (fun row => row.code == code)

/-- The select of the frame's link was not asserted across a pin reset (R181). -/
def State.hears (s : State) (l : Link) : Prop := (s.link l).transaction ≠ .ignored

/-- A request frame passes R177's checks 3 and 4 and reaches step 5: link permitted, declared length the request's own. -/
def State.takes (s : State) (h : Head) (links : List Link) (length : Nat) : Prop :=
  s.hears h.link ∧ h.link ∈ links ∧ h.declared.toNat = length

/-- The three links after an event that raises a set of kinds: each latch takes them, nothing else of a link changes (R185). -/
def Raises (s t : State) (kinds : BitVec 8) : Prop :=
  ∀ l, t.link l = { s.link l with latch := (s.link l).latch ||| kinds }

/-- The three links after a request frame that replaces its link's slot by `r` and raises a set of kinds: the transaction ends
(R176, R178, R185). The model's record of the bytes clocked out on the link is left open here. -/
def Answers (s t : State) (h : Head) (r : Reply) (kinds : BitVec 8) : Prop :=
  ∀ l, t.link l =
    if l = h.link then
      { s.link l with slot := r, transaction := .idle, latch := (s.link l).latch ||| kinds,
                      lastOut := (t.link l).lastOut }
    else { s.link l with latch := (s.link l).latch ||| kinds }

/-- The three links after a frame that leaves every reply slot as it is and raises a set of kinds (R178, R185). -/
def Hears (s t : State) (h : Head) (kinds : BitVec 8) : Prop :=
  ∀ l, t.link l =
    if l = h.link then
      { s.link l with transaction := .idle, latch := (s.link l).latch ||| kinds,
                      lastOut := (t.link l).lastOut }
    else { s.link l with latch := (s.link l).latch ||| kinds }

/-- A 32-bit counter increased by n, saturating at 4,294,967,295. -/
def bump (c : BitVec 32) (n : Nat) : BitVec 32 := BitVec.ofNat 32 (min (c.toNat + n) 4294967295)

/-- A reply of status OK with no payload. -/
def okReply (h : Head) : Reply := ⟨.ok, h.tag, []⟩

/-- A refusal: the status, the request's tag and no payload (R178). -/
def refusal (h : Head) (status : Status) : Reply := ⟨status, h.tag, []⟩

/-- The machine answers a request with `r` and does nothing else: only the requesting link changes. -/
def OnlyAnswers (i : Instr) (h : Head) (r : Reply) (s : State) : Prop :=
  ∃ t, exec i s = .next t ∧ Answers s t h r 0#8 ∧ { t with linkT := s.linkT, linkC := s.linkC, linkS := s.linkS } = s

/-! ## Scan lines (chapter 1) -/

/-- The queue entry of a SCAN_LINE frame: an edge above 4095 is stored as 4095 with its valid flag clear (R1, R2, R9). -/
def scanned (index left right : BitVec 16) (flags : BitVec 8) (photosites : BitVec 256) (stamp : Time) (position : Position) :
    Line :=
  { index := index
    left := min left.toNat 4095
    right := min right.toNat 4095
    leftValid := flags.getLsbD 0 && decide (left.toNat ≤ 4095)
    rightValid := flags.getLsbD 1 && decide (right.toNat ≤ 4095)
    photosites := photosites
    stamp := stamp
    position := position }

/-- The continuity check of R5 accepts a line of this index with d missing lines, at this position. -/
def State.placesLine (s : State) (index : LineIndex) (missing : Nat) (position : Position) : Prop :=
  match s.intake.expected with
  | none => missing = 0 ∧ position = s.intake.restartBase
  | some e => missing = (index - e).toNat ∧ missing < 64 ∧
      position = s.intake.lastPosition.getD 0#32 + BitVec.ofNat 32 missing + 1#32

/-- The intake after an accepted line: the line at the tail, the index, position and counters of R5, and a decode of the head
begun if the decoder was free (R5, R9, R12). -/
def State.intakeWith (s : State) (line : Line) (missing : Nat) : Intake :=
  { s.intake with
    queue := s.intake.queue ++ [line]
    expected := some (line.index + 1#16)
    lastPosition := some line.position
    accepted := bump s.intake.accepted 1
    missing := bump s.intake.missing missing
    decode := s.intake.decode.or (some ⟨s.clock, s.timing, s.console⟩) }

/-! ## Silence entries and moves of the session (chapter 4) -/

/-- A key's phase after a silence notice or a drive loss: from STRIKE and HOLD to RELEASING for the key's settle (R147, R148). -/
def State.cutPhase (s : State) (k : Key) : Phase :=
  match (s.key k).phase with
  | .strike _ _ _ | .hold => .releasing (after s.clock (s.keyCal k).settle)
  | .idle rested => .idle rested
  | .releasing e => .releasing e

/-- The strike counters after the queue is emptied: each STRIKE entry counts as cancelled (R146). -/
def State.cancelledStrikes (s : State) : StrikeCounters :=
  { s.strikes with cancelled := satAdd s.strikes.cancelled (strikeEntries s.queue) }

/-- The pedal unit with both roll requests at 0 and the merge formed again (R153, R155). -/
def State.silentPedals (s : State) : Pedals :=
  { s.pedals with
    rollDamper := 0, rollSoft := 0
    mergedDamper := mergePosition s.console.mode 0 s.pedals.consoleDamper
    mergedSoft := mergePosition s.console.mode 0 (requestOf s.pedals.consoleSoft) }

/-- The shaping engine after merged positions `damper` and `soft` are formed: a changed one sets its channel's target (R80,
R156). -/
def State.shapingFor (s : State) (damper soft : Nat) : Shaping :=
  { s.shaping with
    ch2 := { s.shaping.ch2 with
               target := if damper = s.pedals.mergedDamper then s.shaping.ch2.target else levelStep (damper * 1023 / 127) }
    ch3 := { s.shaping.ch3 with
               target := if soft = s.pedals.mergedSoft then s.shaping.ch3.target else levelStep (soft * 1023 / 127) } }

/-- The effects of a silence notice on queue, keys, note records and pedals (R74, R95, R146, R147, R153). -/
structure Silences (s t : State) : Prop where
  queue : t.queue = []
  strikes : t.strikes = s.cancelledStrikes
  slots : t.slots = []
  keys : ∀ k, t.key k = { s.key k with phase := s.cutPhase k, owner := none }
  struckKeys : ∀ n : NoteTrack, t.struckKeys[n] = none
  pedals : t.pedals = s.silentPedals
  shaping : t.shaping = s.shapingFor s.silentPedals.mergedDamper s.silentPedals.mergedSoft

/-- The speed monitor with no anchor, no runs, UNLOCKED and trim 0; the rest as it stands (R49). -/
def Speed.inactive (m : Speed) : Speed :=
  { m with anchor := none, condition := .unlocked, inBandRun := 0, outBandRun := 0, trim := 0 }

/-- A move of the session to a state that is neither STARTING nor PLAYING: the timer of the state left stops, and the monitor
goes idle when it was one of those two (R49, R51, R52). -/
structure StopsRunning (s t : State) : Prop where
  startupTimer : t.startupTimer = if s.session.state = .starting then none else s.startupTimer
  stallTimer : t.stallTimer = if s.session.state = .playing then none else s.stallTimer
  speed : t.speed = if s.session.state = .starting ∨ s.session.state = .playing then s.speed.inactive else s.speed

/-- The session record after a move: state and last cause as given, no stall cause, the end-confirmed flag as it stood. -/
def Session.movedTo (r : Session) (state : SessionState) (lastCause : Option LastCause) : Session :=
  { state := state, causes := CauseSet.empty, lastCause := lastCause, endConfirmed := r.endConfirmed }

/-- The effects of a drive loss outside the links and the drive stage (R68, R148, R162, R169). -/
structure LosesDrive (s t : State) (cause : LastCause) : Prop where
  paused : s.session.state ∈ [SessionState.starting, .playing, .stalled] →
    Silences { s with pedals := { s.pedals with sostenuto := .off } } t ∧ StopsRunning s t ∧
    t.session = s.session.movedTo .paused (some cause)
  unmoved : s.session.state ∉ [SessionState.starting, .playing, .stalled] →
    t.queue = [] ∧ t.strikes = s.cancelledStrikes ∧ t.slots = [] ∧
    (∀ k, t.key k = { s.key k with phase := s.cutPhase k }) ∧
    t.pedals = { s.pedals with sostenuto := .off } ∧
    t.session = s.session ∧ t.struckKeys = s.struckKeys ∧ t.shaping = s.shaping ∧ t.speed = s.speed ∧
    t.stallTimer = s.stallTimer ∧ t.startupTimer = s.startupTimer
  others : { t with
    linkT := s.linkT, linkC := s.linkC, linkS := s.linkS, drive := s.drive, session := s.session, queue := s.queue
    strikes := s.strikes, slots := s.slots, keys := s.keys, struckKeys := s.struckKeys, pedals := s.pedals
    shaping := s.shaping, speed := s.speed, startupTimer := s.startupTimer, stallTimer := s.stallTimer } = s

/-! ## Insertions into the action queue (chapter 8) -/

/-- A key's phase after a performed release: HOLD goes to RELEASING, a running strike is marked, IDLE and RELEASING stay (R134,
R135). -/
def State.releasedPhase (s : State) (k : Key) : Phase :=
  match (s.key k).phase with
  | .hold => .releasing (s.clock + BitVec.ofNat 32 (s.keyCal k).settle)
  | .strike e _ o => .strike e true o
  | .idle rested => .idle rested
  | .releasing e => .releasing e

/-- The drop candidate of R131 step 1: a queued STRIKE entry of the lowest intensity, and of equals the latest-inserted. -/
def DropCandidate (q : List Entry) (c : Entry) (b : Strike) : Prop :=
  c ∈ q ∧ c.action = .strike b ∧
  ∀ x ∈ q, ∀ st, x.action = .strike st → x ≠ c →
    b.intensity < st.intensity ∨ (b.intensity = st.intensity ∧ insertedBefore x.seq c.seq = true)

/-- An insertion that drops the strike `gone` and leaves the queue `q`: the drop is counted and DROP raised, and a dropped strike
marked release-after clears its key's owner, if that is its own owner and `q`, the new entry included (log entry 13), holds no
STRIKE of it for the key (R104, R130, R131, R132). -/
structure Drops (s t : State) (gone : Strike) (q : List Entry) : Prop where
  queue : t.queue = q
  nextSeq : t.nextSeq = s.nextSeq + 1
  strikes : t.strikes = { s.strikes with dropped := bump s.strikes.dropped 1 }
  raised : Raises s t 0x20#8
  keys : ∀ k, t.key k =
    if gone.releaseAfter = true ∧ k = gone.key ∧ (s.key k).owner = some gone.owner ∧
      q.any (fun x => x.isStrikeOf k gone.owner) = false
    then { s.key k with owner := none } else s.key k
  others : { t with
    linkT := s.linkT, linkC := s.linkC, linkS := s.linkS, queue := s.queue, nextSeq := s.nextSeq, strikes := s.strikes
    keys := s.keys } = s

/-- The insertion of a STRIKE entry: placed while the queue has room for it, else put in the place of a quieter drop candidate,
else dropped itself (R130, R131). -/
structure InsertsStrike (s t : State) (due : Time) (st : Strike) : Prop where
  room : s.queue.length < 96 → strikeEntries s.queue < 80 →
    t = { s with queue := placeEntry ⟨due, s.nextSeq, .strike st⟩ s.queue, nextSeq := s.nextSeq + 1 }
  louder : 96 ≤ s.queue.length ∨ 80 ≤ strikeEntries s.queue → ∀ c b, DropCandidate s.queue c b →
    b.intensity < st.intensity → Drops s t b (placeEntry ⟨due, s.nextSeq, .strike st⟩ (s.queue.erase c))
  notLouder : 96 ≤ s.queue.length ∨ 80 ≤ strikeEntries s.queue →
    ((∃ c b, DropCandidate s.queue c b ∧ st.intensity ≤ b.intensity) ∨ ∀ x ∈ s.queue, x.isStrike = false) →
    Drops s t st s.queue

/-- The state with pedal p's roll request set to v and, if that changed it, its merge formed again (R152, R156). -/
def State.rollRequested (s : State) (p : Pedal) (v : Nat) : State :=
  match p with
  | .damper =>
    let merged := if v = s.pedals.rollDamper then s.pedals.mergedDamper
      else mergePosition s.console.mode v s.pedals.consoleDamper
    { s with pedals := { s.pedals with rollDamper := v, mergedDamper := merged }
             shaping := s.shapingFor merged s.pedals.mergedSoft }
  | .soft =>
    let merged := if v = s.pedals.rollSoft then s.pedals.mergedSoft
      else mergePosition s.console.mode v (requestOf s.pedals.consoleSoft)
    { s with pedals := { s.pedals with rollSoft := v, mergedSoft := merged }
             shaping := s.shapingFor s.pedals.mergedDamper merged }

/-- The performing of an END entry in PLAYING: RETURNING in silence with last cause END_MARK (R3, R10, R70, R74). -/
structure EndsPerformance (s t : State) : Prop where
  raised : Raises s t 0x01#8
  silent : Silences s t
  stopped : StopsRunning s t
  session : t.session = s.session.movedTo .returning (some .endMark)
  intake : t.intake = { s.intake with state := .off, queue := [], decode := none }
  others : { t with
    linkT := s.linkT, linkC := s.linkC, linkS := s.linkS, session := s.session, queue := s.queue, strikes := s.strikes
    slots := s.slots, keys := s.keys, struckKeys := s.struckKeys, pedals := s.pedals, shaping := s.shaping, speed := s.speed
    startupTimer := s.startupTimer, stallTimer := s.stallTimer, intake := s.intake } = s

/-- The performing of an entry of insertion sequence `seq` beside a queue that holds no STRIKE entry (R132, R134 to R136). -/
def PerformsAtOnce (s t : State) (a : Action) (seq : BitVec 32) : Prop :=
  match a with
  | .release k m =>
    t = if (s.key k).owner = some m then s.setKey k { s.key k with phase := s.releasedPhase k, owner := none } else s
  | .takeover k m =>
    t = ({ s with queue := s.queue.filter fun x => !(x.action == .release k m && insertedBefore x.seq seq) } : State).setKey k
      { s.key k with phase := s.releasedPhase k }
  | .pedal p v => t = s.rollRequested p v
  | .endMark => s.session.state = .playing → EndsPerformance s t
  | .strike _ => t = s

/-- The insertion of a RELEASE, PEDAL or END entry: placed while the queue has room, else put in the place of the drop candidate,
else, with no STRIKE entry queued, performed at once (R130, R132). -/
structure InsertsOther (s t : State) (due : Time) (a : Action) : Prop where
  room : s.queue.length < 96 →
    t = { s with queue := placeEntry ⟨due, s.nextSeq, a⟩ s.queue, nextSeq := s.nextSeq + 1 }
  drops : 96 ≤ s.queue.length → ∀ c b, DropCandidate s.queue c b →
    Drops s t b (placeEntry ⟨due, s.nextSeq, a⟩ (s.queue.erase c))
  performs : 96 ≤ s.queue.length → (∀ x ∈ s.queue, x.isStrike = false) →
    PerformsAtOnce { s with nextSeq := s.nextSeq + 1 } t a s.nextSeq

/-- The insertion of a TAKEOVER release due now, performed at once: it takes its number, and its room as R132 says, and then R135
is done on the queue and the key (R130, R132, R135, R145 step 1). -/
def TakesOverAtOnce (s t : State) (k : Key) (m : Owner) : Prop :=
  ∃ r : State,
    (s.queue.length < 96 ∨ (∀ x ∈ s.queue, x.isStrike = false) → r = { s with nextSeq := s.nextSeq + 1 }) ∧
    (96 ≤ s.queue.length → ∀ c b, DropCandidate s.queue c b → Drops s r b (s.queue.erase c)) ∧
    t = ({ r with
      queue := (r.queue.filter fun x => !(x.action == .release k m && insertedBefore x.seq s.nextSeq)).map
        fun x => if x.isStrikeOf k m && insertedBefore x.seq s.nextSeq then x.marked else x } : State).setKey k
      { r.key k with phase := r.releasedPhase k }

/-! ## The reports of a decoded line (chapter 2) -/

/-- The onset time a detector reports when it opens at a line (R29, R32, R33). -/
def onsetReport (old new : Detector) : Option Time :=
  match new with
  | .opened onset _ => if old.isOpen then none else some onset.time
  | .closed | .candidate _ _ _ => none

/-- The first-dark time a detector reports when it closes at a line (R30, R32, R33). -/
def offsetReport (old new : Detector) : Option Time :=
  match old with
  | .opened _ (.one m) | .opened _ (.two m) => if new.isOpen then none else some m.time
  | .opened _ .zero | .closed | .candidate _ _ _ => none

/-- The DAMPER or SOFT track's change of level, if the line made one, is handed to the pedal unit with its change time (R33,
R151). -/
def State.levelReported (s : State) (d : Decode) (p : Pedal) (old new : Detector) : State :=
  match onsetReport old new, offsetReport old new with
  | some time, _ => s.pedalChange d.timing p true time
  | none, some time => s.pedalChange d.timing p false time
  | none, none => s

/-- Step codes that differ from those of the detectors `old` are held, with the table's levels as targets (R34, R79). -/
def State.codesReported (s : State) (old : Vector Detector 101) : State :=
  let before : State := { s with detectors := old }
  { s with shaping := { s.shaping with
      bassCode := if s.bassCode = before.bassCode then s.shaping.bassCode else s.bassCode
      trebleCode := if s.trebleCode = before.trebleCode then s.shaping.trebleCode else s.trebleCode
      ch0 := if s.bassCode = before.bassCode then s.shaping.ch0
        else { s.shaping.ch0 with target := s.shaping.stepTable[s.bassCode] * 64 }
      ch1 := if s.trebleCode = before.trebleCode then s.shaping.ch1
        else { s.shaping.ch1 with target := s.shaping.stepTable[s.trebleCode] * 64 } } }

/-- The state after the first three groups of R35, in its order: DAMPER, step codes, SOFT; then the offsets and then the onsets of
the note tracks in increasing number. `s` has its detectors as the line leaves them, `old` are those before the line, and d is
the decode with the settings of its beginning (R12, R32 to R35). -/
def State.reported (s : State) (d : Decode) (old : Vector Detector 101) : State :=
  let times (f : Detector → Detector → Option Time) : List (NoteTrack × Time) :=
    (List.finRange 88).filterMap fun n => (f old[noteTrackOf n] s.detectors[noteTrackOf n]).map (n, ·)
  let controls :=
    ((s.levelReported d .damper old[(1 : Track)] s.detectors[(1 : Track)]).codesReported old).levelReported d .soft
      old[(100 : Track)] s.detectors[(100 : Track)]
  let released := (times offsetReport).foldl (fun u r => u.noteOffset d.timing r.1 r.2) controls
  (times onsetReport).foldl (fun u r => u.noteOnset d.timing d.console r.1 r.2) released

/-! ## Resets (chapter 11) -/

/-- The blocks that both resets put in one and the same state (R18, R26, R27, R53, R55, R94, R114, R130, R140, R149, R164,
R175): no roll, no line, no note, no entry, every key at rest since now. -/
structure BlocksAtReset (t : State) : Prop where
  session : t.session = ⟨.noRoll, CauseSet.empty, none, false⟩
  intake : t.intake = ⟨.off, [], none, none, 0#32, none, 0#32, 0#32, 0#32, 0#32, 0#32⟩
  tracker : t.tracker = ⟨.unseeded, none, 0, 0⟩
  detectors : ∀ k : Track, t.detectors[k] = .closed
  speed : t.speed = ⟨100, 256, none, 0, .unlocked, 0, 0, 0, 0#32⟩
  timers : t.stallTimer = none ∧ t.startupTimer = none
  struckKeys : ∀ n : NoteTrack, t.struckKeys[n] = none
  console : t.console = ⟨0, .roll, 128, 0, 0, 256⟩
  queue : t.queue = [] ∧ t.nextSeq = 0#32 ∧ t.slots = []
  keys : ∀ k, t.key k = ⟨.idle false, none, t.clock, 0, .cool, 0#16, 0#16⟩
  strikes : t.strikes = ⟨0#32, 0#32, 0#32, 0#32⟩
  pedals : t.pedals = ⟨0, 0, 0, false, false, 0, 0, .off⟩

/-! ## The figures of an onset and of a strike (chapters 6 and 7) -/

/-- The intensity of an onset of note track n on key k by R98 to R100 and R102, from the settings of its source and the levels,
accents and calibration as they stand. -/
def OnsetIntensity (s : State) (t : Timing) (c : Console) (n : NoteTrack) (k : Key) (intensity : Nat) : Prop :=
  ∃ level lever accent roll v,
    (n.val < t.split → level = s.shaping.ch0.level / 64 ∧ lever = c.bassLever ∧ accent = s.detectors[(2 : Track)].isOpen) ∧
    (t.split ≤ n.val → level = s.shaping.ch1.level / 64 ∧ lever = c.trebleLever ∧ accent = s.detectors[(99 : Track)].isOpen) ∧
    roll = (if accent then min 1023 (level + t.accentBoost) else level) ∧
    (c.mode = .roll → v = roll) ∧ (c.mode = .manual → v = lever) ∧
    (c.mode = .blend → v = (roll * (256 - c.blendWeight) + lever * c.blendWeight) / 256) ∧
    intensity = max (min 1023 (v * c.masterGain / 256) / 8) (s.keyCal k).touchFloor

/-- The width and the flight of a strike on key k by R123 and R124, from its record and thermal condition as they stand. -/
def StrikeFigures (s : State) (k : Key) (intensity width flight : Nat) : Prop :=
  ∃ i f base : Nat, i = intensity / 16 ∧ f = intensity % 16 ∧
    (base : Int) = point (s.keyCal k).width i +
      ((point (s.keyCal k).width (i + 1) : Int) - point (s.keyCal k).width i) * f / 16 ∧
    (flight : Int) = point (s.keyCal k).flight i +
      ((point (s.keyCal k).flight (i + 1) : Int) - point (s.keyCal k).flight i) * f / 16 ∧
    width = max 500 (min 25000 (if (s.key k).thermal = .hot then base / 2 else base))

/-- The effects of ROLL_LOADED and REWOUND outside the links and the nominal rate (R3, R26, R27, R39, R53, R91, R114). -/
structure StartsRoll (s t : State) : Prop where
  session : t.session = ⟨.loaded, CauseSet.empty, s.session.lastCause, false⟩
  intake : t.intake = { s.intake with state := .accepting, expected := none, restartBase := 0#32, lastPosition := none }
  tracker : t.tracker = ⟨.unseeded, none, 0, 0⟩
  detectors : ∀ k : Track, t.detectors[k] = .closed
  shaping : t.shaping = { s.shaping with
    bassCode := 0, trebleCode := 0
    ch0 := { s.shaping.ch0 with level := s.shaping.stepTable[0] * 64, target := s.shaping.stepTable[0] * 64 }
    ch1 := { s.shaping.ch1 with level := s.shaping.stepTable[0] * 64, target := s.shaping.stepTable[0] * 64 } }
  timers : t.stallTimer = none ∧ t.startupTimer = none
  struckKeys : ∀ n : NoteTrack, t.struckKeys[n] = none
  others : { t with
    linkT := s.linkT, linkC := s.linkC, linkS := s.linkS, session := s.session, speed := s.speed, intake := s.intake
    tracker := s.tracker, detectors := s.detectors, shaping := s.shaping, stallTimer := s.stallTimer
    startupTimer := s.startupTimer, struckKeys := s.struckKeys } = s

/-! ## The part's own events (chapters 5, 8, 9 and 10) -/

/-- A channel after one step at a rate: its level moves toward its target by the rate's share of the distance, rounded down and
at least 1 (R85). -/
def Channel.approached (c : Channel) (rate : Nat) : Channel :=
  { c with
    level :=
      if c.level < c.target then c.level + max 1 ((c.target - c.level) * rate / 256)
      else if c.target < c.level then c.level - max 1 ((c.level - c.target) * rate / 256)
      else c.level }

/-- The table of R173: the condition before, the heat after the change, the condition after. -/
def ThermalMoves (before : Thermal) (heat : Nat) (after : Thermal) : Prop :=
  (before = .cool → after = if 24000 ≤ heat then .warm else .cool) ∧
  (before = .warm → after = if 40000 ≤ heat then .hot else if 16000 ≤ heat then .warm else .cool) ∧
  (before = .hot → after = if 32000 ≤ heat then .hot else if 16000 ≤ heat then .warm else .cool)

/-- The duty of a pedal curve at an integer part x, floored toward minus infinity (R157). -/
def CurveDuty (curve : Vector Nat 5) (x duty : Nat) : Prop :=
  (duty : Int) = point curve (x / 256) + ((point curve (x / 256 + 1) : Int) - point curve (x / 256)) * (x % 256 : Nat) / 256

/-- The queue split at the entry to perform next: the first that is ripe and no STRIKE (R133). -/
def State.performsNext (s : State) (pre : List Entry) (e : Entry) (post : List Entry) : Prop :=
  s.queue = pre ++ e :: post ∧ e.isStrike = false ∧ (s.clock - e.due).toNat < 2147483648 ∧
  ∀ x ∈ pre, x.isStrike = true ∨ 2147483648 ≤ (s.clock - x.due).toNat

/-- A STRIKE entry is ready behind the entries `ahead`: ripe, its key IDLE and rested, no release for the key ahead (R137). -/
def State.readyAfter (s : State) (ahead : List Entry) (x : Entry) : Prop :=
  ∃ st, x.action = .strike st ∧ (s.clock - x.due).toNat < 2147483648 ∧ (s.key st.key).phase = .idle true ∧
    ∀ y ∈ ahead, y.isReleaseFor st.key = false

/-! ## Invariants of the state -/

/-- A shaping channel's record is in range: level and target within 0..65472, the target a whole level step, rates 1..256 (R77,
R83, R85). -/
structure Channel.InRange (c : Channel) : Prop where
  level : c.level ≤ 65472
  target : c.target ≤ 65472 ∧ 64 ∣ c.target
  rates : 1 ≤ c.rateA ∧ c.rateA ≤ 256 ∧ 1 ≤ c.rateB ∧ c.rateB ≤ 256

/-- Timing settings in range (R119). -/
structure Timing.InRange (t : Timing) : Prop where
  lookAhead : 20000 ≤ t.lookAhead ∧ t.lookAhead ≤ 500000
  leads : t.releaseLead ≤ 500000 ∧ t.pedalLead ≤ 500000
  split : 1 ≤ t.split ∧ t.split ≤ 87
  accentBoost : t.accentBoost ≤ 255
  repeatGap : 1000 ≤ t.repeatGap ∧ t.repeatGap ≤ 50000
  stallTimeout : 20000 ≤ t.stallTimeout ∧ t.stallTimeout ≤ 500000
  speedTolerance : 5 ≤ t.speedTolerance ∧ t.speedTolerance ≤ 100
  expressionTick : 1000 ≤ t.expressionTick ∧ t.expressionTick ≤ 20000

/-- Console settings in range (R109, R110, R111). -/
structure Console.InRange (c : Console) : Prop where
  transpose : -12 ≤ c.transpose ∧ c.transpose ≤ 12
  blendWeight : c.blendWeight ≤ 256
  levers : c.bassLever ≤ 1023 ∧ c.trebleLever ≤ 1023
  masterGain : c.masterGain ≤ 384

/-- Every setting and figure stands within its stored range, the merged pedal positions are what R155 gives and the pedal
channels' targets what R80 gives for them, and the step codes held are those of the level tracks (R42, R43, R46, R77, R79, R85,
R115, R119, R151, R155, R158). -/
structure Ranges (s : State) : Prop where
  channels : ∀ ch ∈ [Shaping.ch0, Shaping.ch1, Shaping.ch2, Shaping.ch3], (ch s.shaping).InRange
  stepTable : ∀ j : Fin 8, s.shaping.stepTable[j] ≤ 1023
  stepCodes : s.shaping.bassCode = s.bassCode ∧ s.shaping.trebleCode = s.trebleCode
  rollRequests : s.pedals.rollDamper ∈ [0, 127] ∧ s.pedals.rollSoft ∈ [0, 127]
  consoleDamper : s.pedals.consoleDamper ≤ 127
  merged : s.pedals.mergedDamper = s.damperMerge ∧ s.pedals.mergedSoft = s.softMerge
  pedalTargets : s.shaping.ch2.target = s.pedals.mergedDamper * 1023 / 127 * 64 ∧
    s.shaping.ch3.target = s.pedals.mergedSoft * 1023 / 127 * 64
  keyCal : ∀ k, (s.keyCal k).touchFloor ≤ 127 ∧ (∀ j : Fin 9, (s.keyCal k).width[j] ≤ 65535) ∧
    (s.keyCal k).holdDuty ≤ 1000 ∧ 5000 ≤ (s.keyCal k).settle ∧ (s.keyCal k).settle ≤ 100000
  curves : ∀ j : Fin 5, s.calibration.damperCurve[j] ≤ 1000 ∧ s.calibration.softCurve[j] ≤ 1000
  sostenutoHold : s.calibration.sostenutoHold ≤ 1000
  timing : s.timing.InRange
  console : s.console.InRange
  decode : ∀ d, s.intake.decode = some d → d.timing.InRange ∧ d.console.InRange
  speed : 100 ≤ s.speed.nominalRate ∧ s.speed.nominalRate ≤ 1500 ∧ 128 ≤ s.speed.tempo ∧ s.speed.tempo ≤ 512 ∧
    s.speed.lastRatio ≤ 65535 ∧ -125 ≤ s.speed.trim ∧ s.speed.trim ≤ 125
  duties : ∀ i : Fin 91, s.drive.duties[i] ≤ 1000

/-- A key's heat and its condition agree (R173). -/
def KeyRecord.ThermalFits (r : KeyRecord) : Prop :=
  r.heat ≤ 65535 ∧ (r.thermal = .cool → r.heat < 24000) ∧ (r.thermal = .warm → 16000 ≤ r.heat ∧ r.heat < 40000) ∧
    (r.thermal = .hot → 32000 ≤ r.heat)

/-- At most twelve keys are in STRIKE, each holding one slot, and every key's condition fits its heat (R138, R172, R173). -/
structure KeysFit (s : State) : Prop where
  slots : s.slots.Nodup ∧ s.slots.length ≤ 12
  strikes : ∀ k, k ∈ s.slots ↔ (s.key k).phase.isStrike = true
  heat : ∀ k, (s.key k).ThermalFits

/-- The intake's queue and decode fit its state and the session's, and a running decode began at most 120 µs ago (R3, R9, R12,
R18). -/
structure IntakeFits (s : State) : Prop where
  off : s.intake.state = .off ↔ s.session.state = .noRoll ∨ s.session.state = .returning
  emptied : s.intake.state = .off → s.intake.queue = []
  capacity : s.intake.queue.length ≤ 16
  decode : s.intake.decode.isSome = true ↔ s.intake.queue ≠ []
  decodeTime : s.decodeElapsed ≤ 120
  lastPosition : s.intake.expected ≠ none → s.intake.lastPosition ≠ none

/-- Stall causes, timers, speed monitor, intake and tracker fit the session state (R49, R51, R52, R55, R59, R63, R64, R69). -/
structure SessionFits (s : State) : Prop where
  causes : s.session.causes = CauseSet.empty ↔ s.session.state ≠ .stalled
  stallTimer : s.stallTimer.isSome = true ↔ s.session.state = .playing
  startupTimer : s.startupTimer.isSome = true ↔ s.session.state = .starting
  endConfirmed : s.session.state = .noRoll ∨ s.session.state = .starting → s.session.endConfirmed = false
  speedIdle : s.session.state ≠ .starting → s.session.state ≠ .playing → s.speed = s.speed.inactive
  speedStarting : s.session.state = .starting →
    s.speed.condition = .unlocked ∧ s.speed.inBandRun ≤ 2 ∧ s.speed.outBandRun = 0
  speedPlaying : s.session.state = .playing → s.speed.condition ≠ .unlocked ∧ s.speed.outBandRun ≤ 3
  running : s.session.state = .starting ∨ s.session.state = .playing →
    s.intake.state = .accepting ∧ s.tracker.state ≠ .lost
  stalled : s.session.state = .stalled →
    (s.session.causes.intakeHalt = true ↔ s.intake.state = .halted) ∧
    (s.session.causes.tracking = true ↔ s.tracker.state = .lost)

/-- Notes and pedals are held only while the session lets them be: struck keys, roll requests and PEDAL and END entries in
PLAYING alone, and in STARTING, PAUSED, STALLED and RETURNING an empty queue, no key sounding and no owner (R74, R95, R136, R147,
R153). -/
structure NotesFit (s : State) : Prop where
  struckKeys : ∀ n : NoteTrack, s.struckKeys[n] ≠ none → s.session.state = .playing
  rollRequests : s.pedals.rollDamper ≠ 0 ∨ s.pedals.rollSoft ≠ 0 → s.session.state = .playing
  pedalEntries : ∀ e ∈ s.queue, e.action.isPedal = true ∨ e.action.isEnd = true → s.session.state = .playing
  endEntries : ∀ e ∈ s.queue, e.action.isEnd = true → s.session.endConfirmed = true
  silent : s.session.state ∈ [SessionState.starting, .paused, .stalled, .returning] →
    s.queue = [] ∧ s.slots = [] ∧ ∀ k, (s.key k).phase.isSounding = false ∧ (s.key k).owner = none

/-- ACT_EN, the fault latch and the fault input agree, and without ACT_EN nothing is driven or queued (R58, R75, R148, R160,
R162, R167, R168). -/
structure DriveFits (s : State) : Prop where
  running : s.session.state ∈ [SessionState.starting, .playing, .stalled] → s.drive.actEn = true
  latch : (s.drive.faultInput = true → s.drive.faultLatch = true) ∧ (s.drive.actEn = true → s.drive.faultLatch = false)
  lost : s.drive.actEn = false → s.queue = [] ∧ s.slots = [] ∧ ∀ k, (s.key k).phase.isSounding = false
  sostenuto : s.pedals.sostenuto ≠ .off ↔ s.pedals.consoleSostenuto = true ∧ s.drive.actEn = true

/-- The owner an entry acts for: a strike's or release's owner, a takeover's displaced one. -/
def Entry.owner? (e : Entry) : Option Owner :=
  match e.action with
  | .strike st => some st.owner
  | .release _ t => some t
  | .takeover _ m => some m
  | .pedal _ _ | .endMark => none

/-- The queue keeps its capacities and its entries their ranges, each note track owns at most one key, and note tracks own only
in PLAYING, TEST only in NO_ROLL and LOADED (R102, R104, R124, R129, R130, R151). -/
structure EntriesFit (s : State) : Prop where
  capacity : s.queue.length ≤ 96 ∧ strikeEntries s.queue ≤ 80
  strikes : ∀ e ∈ s.queue, ∀ st, e.action = .strike st → 500 ≤ st.width ∧ st.width ≤ 25000 ∧ st.intensity ≤ 127
  pedals : ∀ e ∈ s.queue, ∀ p v, e.action = .pedal p v → v = 0 ∨ v = 127
  oneKey : ∀ (n : NoteTrack) (j k : Key), (s.key j).owner = some (.note n) → (s.key k).owner = some (.note n) → j = k
  owners : ∀ o : Owner, (∃ k, (s.key k).owner = some o) ∨ (∃ e ∈ s.queue, e.owner? = some o) →
    (o = .test → s.session.state = .noRoll ∨ s.session.state = .loaded) ∧
    (∀ n, o = .note n → s.session.state = .playing)

/-- The invariant of the machine: its seven parts together. -/
structure Invariant (s : State) : Prop where
  ranges : Ranges s
  keys : KeysFit s
  intake : IntakeFits s
  session : SessionFits s
  notes : NotesFit s
  drive : DriveFits s
  entries : EntriesFit s

end Sys2Proof.Machine
end

