-- ==== Sys2Proof/Certificates/Slice0/Obligations.lean ====
section
/-! DEFINITION. The statements about the model, for the provers. -/

open Sys2Proof Sys2Proof.Machine

/-! ## The step, the clock and the queue of commands -/

/-- The row's form of a step: the command at the front of the queue is executed on the state with the queue's rest. -/
def Obligations.StepTakesFrontCommand : Prop :=
  ∀ (c : Instr) (rest : List Instr) (s : State),
    step { s with pending := c :: rest } = exec c { s with pending := rest }

/-- The model's choice (log entry 2): with no command waiting, the part takes one of its own due events, and with none due one
microsecond passes. -/
def Obligations.IdleStepTakesADueEventOrAMicrosecond : Prop :=
  ∀ s : State, s.pending = [] →
    (s.dueEvents = [] → step s = .next { s with clock := s.clock + 1, freeCount := s.freeCount + 1 }) ∧
    (s.dueEvents ≠ [] → ∃ c ∈ s.dueEvents, step s = exec c { s with freeCount := s.freeCount + 1 })

/-- Every command completes, and leaves the score clock alone but for pin reset, which sets it to 0 (R40). That the commands that
wait are left in their queue is the model's form of a command (log entry 1), and that pin reset leaves them there its reading of
that event (log entry 5); that an event command whose condition does not hold completes too is the model's choice (log entry 6). -/
def Obligations.EveryCommandCompletesInNoTime : Prop :=
  ∀ (c : Instr) (s : State), ∃ t, exec c s = .next t ∧ t.pending = s.pending ∧
    t.clock = (if c = .pinReset then 0#32 else s.clock)

/-! ## Frames (chapter 11) -/

/-- The frame of a well-formed request, laid out by section 11.2.2 with its declared length its payload's, decodes to it. -/
def Obligations.DecodedFrameIsTheRequestEncoded : Prop :=
  ∀ (i : Instr) (h : Head) (l : Link) (f : Frame), WellFormed i = true → i.head? = some h →
    h.declared.toNat = (requestPayload i).length → encodeRequest i = some (l, f) → decodeFrame l f = i

/-- A frame is discarded exactly when it fails the byte count of R177, or ends with a partial byte (R176); and one that passes
is an unknown request exactly when its first byte is no code of Table 11-2 (R177, steps 1 and 2). -/
def Obligations.FramesDiscardedOrUnknown : Prop :=
  (∀ (l : Link) (f : Frame),
    decodeFrame l f = .frameDiscard l f ↔
      ¬ (f.extraBits = 0 ∧ ∃ code tag declared payload, f.bytes = code :: tag :: declared :: payload ∧
          payload.length = declared.toNat ∧ declared.toNat ≤ 64)) ∧
  (∀ (l : Link) (code tag declared : Byte) (payload : List Byte),
    payload.length = declared.toNat → declared.toNat ≤ 64 →
    (decodeFrame l ⟨code :: tag :: declared :: payload, 0⟩ = .unknownRequest ⟨l, tag, declared⟩ code ↔
      ∀ row ∈ requestTable, row.code ≠ code))

/-! ## Transactions and replies (chapter 11) -/

/-- At the assertion of select the content of the slot is fixed as the reply of the transaction, and that reply is what a
transaction on the T-link or the C-link clocks out, followed by zeros, whatever a RESET_CORE taken on the S-link in between does
to the slot (R176, R181). -/
def Obligations.ReplyIsFixedAtTheAssertion : Prop :=
  (∀ (l : Link) (s : State), (s.link l).transaction = .idle →
    exec (.transactionStart l) s =
      .next (s.setLink l { s.link l with transaction := .inProgress (s.link l).slot.bytes })) ∧
  (∀ (l : Link) (h : Head) (f : Frame) (s : State), l ≠ .S → s.takes h [.S] 0 → (s.link l).transaction = .idle →
    f.extraBits = 0 →
    ∃ s1 s2 s3, exec (.transactionStart l) s = .next s1 ∧ exec (.resetCore h) s1 = .next s2 ∧
      exec (.frameDiscard l f) s2 = .next s3 ∧
      (s3.link l).lastOut = ((s.link l).slot.bytes ++ List.replicate f.bytes.length 0#8).take f.bytes.length)

/-- A discarded frame counts on its own link, to at most 4,294,967,295, and leaves the slot (R177 step 1, R179). -/
def Obligations.DiscardCountsOnItsLinkOnly : Prop :=
  ∀ (l : Link) (f : Frame) (s : State), s.hears l →
    ∃ t, exec (.frameDiscard l f) s = .next t ∧
      (∀ m, (t.link m).discards =
        (if m = l then BitVec.ofNat 32 (min ((s.link l).discards.toNat + 1) 4294967295) else (s.link m).discards)) ∧
      (∀ m, (t.link m).slot = (s.link m).slot ∧ (t.link m).latch = (s.link m).latch ∧ (t.link m).mask = (s.link m).mask) ∧
      (t.link l).transaction = .idle ∧ (∀ m, m ≠ l → t.link m = s.link m) ∧
      { t with linkT := s.linkT, linkC := s.linkC, linkS := s.linkS } = s

/-- A select that was asserted across a pin reset is released without a frame: no request of any row acts, nothing is counted,
no slot changes, and the link is ready for its next assertion (R181). -/
def Obligations.IgnoredSelectTakesNoFrame : Prop :=
  ∀ (l : Link) (s : State), (s.link l).transaction = .ignored →
    (∀ (i : Instr) (h : Head), i.head? = some h → h.link = l →
      exec i s = .next (s.setLink l { s.link l with transaction := .idle })) ∧
    (∀ f : Frame, exec (.frameDiscard l f) s = .next (s.setLink l { s.link l with transaction := .idle })) ∧
    exec (.selectReleaseAfterPinReset l) s = .next (s.setLink l { s.link l with transaction := .idle })

/-- A counted frame of an unknown code is answered UNKNOWN; every request of Table 11-2 on a link it is not permitted on is
answered NOT_PERMITTED, and on a permitted link with a declared length other than its own LENGTH. Nothing but the slot changes
(R177 steps 2 to 4, R178). -/
def Obligations.FramingRefusalsChangeOnlyTheSlot : Prop :=
  (∀ (h : Head) (code : Byte) (s : State), s.hears h.link →
    OnlyAnswers (.unknownRequest h code) h (refusal h .unknown) s) ∧
  (∀ (i : Instr) (h : Head) (row : RequestRow) (s : State), i.head? = some h → requestRow i = some row → s.hears h.link →
    (h.link ∉ row.links → OnlyAnswers i h (refusal h .notPermitted) s) ∧
    (h.link ∈ row.links → h.declared.toNat ≠ row.length → OnlyAnswers i h (refusal h .length) s))

/-- TRANSPORT_STATUS and PERFORMANCE_STATUS on any link, in every session state, are answered OK with the fields of section
11.2.3 and change nothing but the slot (R183). -/
def Obligations.StatusReadsReportAndChangeNothing : Prop :=
  ∀ (h : Head) (s : State), s.takes h [.T, .C, .S] 0 →
    OnlyAnswers (.transportStatus h) h
      ⟨.ok, h.tag,
        [s.session.state.code,
         (if s.session.state = .starting ∨ s.session.state = .playing then 1#8
          else if s.session.state = .returning then 2#8 else 0#8),
         BitVec.ofInt 8 s.speed.trim, BitVec.ofNat 8 s.speed.lastRatio, BitVec.ofNat 8 (s.speed.lastRatio / 256),
         s.speed.condition.code, s.intake.state.code, BitVec.ofNat 8 (16 - s.intake.queue.length), s.tracker.state.code] ++
        leBytes 4 (s.intake.lastPosition.getD 0#32).toNat⟩ s ∧
    OnlyAnswers (.performanceStatus h) h
      ⟨.ok, h.tag,
        [s.session.state.code, s.session.causes.code, lastCauseCode s.session.lastCause] ++
        leBytes 4 (s.intake.lastPosition.getD 0#32).toNat ++
        leBytes 2 (s.shaping.ch0.level / 64) ++ leBytes 2 (s.shaping.ch1.level / 64) ++
        leBytes 2 (s.shaping.ch2.level / 64) ++ leBytes 2 (s.shaping.ch3.level / 64) ++ leBytes 2 s.speed.tempo ++
        [BitVec.ofInt 8 s.console.transpose, s.console.mode.code, BitVec.ofNat 8 s.slots.length,
         BitVec.ofNat 8 s.queue.length] ++ leBytes 4 s.strikes.late.toNat⟩ s

/-- READ_EVENTS reports the requesting link's latch and mask; ACK_EVENTS removes the kinds of its set from that latch, and
SET_EVENT_MASK replaces that mask whole. No other link changes, and neither latch nor mask but as said (R186, R187). -/
def Obligations.EventRequestsActOnOneLink : Prop :=
  ∀ (h : Head) (kinds : BitVec 8) (s : State),
    (s.takes h [.T, .C, .S] 0 →
      OnlyAnswers (.readEvents h) h ⟨.ok, h.tag, [(s.link h.link).latch, (s.link h.link).mask]⟩ s) ∧
    (s.takes h [.T, .C, .S] 1 →
      (∃ t, exec (.ackEvents h kinds) s = .next t ∧
        (∀ n, (t.link h.link).latch.getLsbD n = ((s.link h.link).latch.getLsbD n && !kinds.getLsbD n)) ∧
        (t.link h.link).mask = (s.link h.link).mask ∧ (t.link h.link).slot = okReply h ∧
        (t.link h.link).discards = (s.link h.link).discards ∧ (t.link h.link).transaction = .idle ∧
        (∀ m, m ≠ h.link → t.link m = s.link m) ∧
        { t with linkT := s.linkT, linkC := s.linkC, linkS := s.linkS } = s) ∧
      (∃ t, exec (.setEventMask h kinds) s = .next t ∧
        (t.link h.link).latch = (s.link h.link).latch ∧ (t.link h.link).mask = kinds ∧ (t.link h.link).slot = okReply h ∧
        (t.link h.link).discards = (s.link h.link).discards ∧ (t.link h.link).transaction = .idle ∧
        (∀ m, m ≠ h.link → t.link m = s.link m) ∧
        { t with linkT := s.linkT, linkC := s.linkC, linkS := s.linkS } = s))

/-- A link's attention line is asserted exactly when some kind is both in its latch and in its mask (R188). -/
def Obligations.AttentionIffAKindIsLatchedAndMasked : Prop :=
  ∀ (l : Link) (s : State),
    s.attention l = true ↔ ∃ n, (s.link l).latch.getLsbD n = true ∧ (s.link l).mask.getLsbD n = true

/-! ## Scan lines and the speed monitor (chapters 1 and 3) -/

/-- A line taken while the intake is OFF or HALTED is refused and counted; one that finds 16 lines queued is discarded as an
overrun, counted, and raises INTAKE. Nothing else changes, the reply slot included, and LINE_RDY is deasserted (R1, R4, R7,
R11). -/
def Obligations.RefusedAndOverrunLines : Prop :=
  ∀ (h : Head) (index left right : BitVec 16) (flags : BitVec 8) (photosites : BitVec 256) (s : State), s.takes h [.T] 39 →
    (s.intake.state ≠ .accepting →
      ∃ t, exec (.scanLine h index left right flags photosites) s = .next t ∧ Hears s t h 0#8 ∧
        t.intake = { s.intake with refused := bump s.intake.refused 1 } ∧ t.lineReady = false ∧
        { t with linkT := s.linkT, linkC := s.linkC, linkS := s.linkS, intake := s.intake } = s) ∧
    (s.intake.state = .accepting → 16 ≤ s.intake.queue.length →
      ∃ t, exec (.scanLine h index left right flags photosites) s = .next t ∧ Hears s t h 0x08#8 ∧
        t.intake = { s.intake with overruns := bump s.intake.overruns 1 } ∧ t.lineReady = false ∧
        { t with linkT := s.linkT, linkC := s.linkC, linkS := s.linkS, intake := s.intake } = s)

/-- A line 64 or more indices off the expected one halts the intake, is counted and raises INTAKE; the expected index and the
positions stand, and LINE_RDY is deasserted. STARTING and PLAYING go to STALLED with INTAKE_HALT alone, STALLED adds it, other
states record nothing (R5, R6, R11, R63). -/
def Obligations.OutOfOrderLineHaltsTheIntake : Prop :=
  ∀ (h : Head) (index left right : BitVec 16) (flags : BitVec 8) (photosites : BitVec 256) (e : LineIndex) (s : State),
    s.takes h [.T] 39 → s.intake.state = .accepting → s.intake.queue.length < 16 → s.intake.expected = some e →
    64 ≤ (index - e).toNat →
    ∃ t, exec (.scanLine h index left right flags photosites) s = .next t ∧
      t.intake = { s.intake with state := .halted, outOfOrder := bump s.intake.outOfOrder 1 } ∧ t.lineReady = false ∧
      (if s.session.state = .starting ∨ s.session.state = .playing then
        t.session = { s.session with state := .stalled, causes := ⟨false, false, true⟩ } ∧
        Hears s t h 0x09#8 ∧ Silences s t ∧ StopsRunning s t ∧
        { t with
          linkT := s.linkT, linkC := s.linkC, linkS := s.linkS, intake := s.intake, session := s.session, queue := s.queue
          strikes := s.strikes, slots := s.slots, keys := s.keys, struckKeys := s.struckKeys, pedals := s.pedals
          shaping := s.shaping, speed := s.speed, stallTimer := s.stallTimer, startupTimer := s.startupTimer } = s
      else
        t.session = (if s.session.state = .stalled
          then { s.session with causes := { s.session.causes with intakeHalt := true } } else s.session) ∧
        Hears s t h 0x08#8 ∧
        { t with linkT := s.linkT, linkC := s.linkC, linkS := s.linkS, intake := s.intake, session := s.session } = s)

/-- An accepted line joins the tail of the queue with its stored edges, its stamp and its position, and moves the expected
index, the last position and the counters, in every session state; where it leads from STALLED to RETURNING, the emptied intake
keeps those. The reply slot stays, and LINE_RDY is asserted while the intake accepts with free room 4 or more (R1, R2, R5, R9 to
R11). In PLAYING it restarts the stall timer (R51); while the session runs it becomes the anchor when there is none or the
acceptance is open, and changes nothing in the monitor within 32 positions of the anchor (R44). While the session is neither
STARTING nor PLAYING, nor STALLED with NO_LINES held, nothing but the intake changes (R51, R64). -/
def Obligations.AcceptedLineJoinsTheQueue : Prop :=
  ∀ (h : Head) (index left right : BitVec 16) (flags : BitVec 8) (photosites : BitVec 256) (d : Nat) (position : Position)
    (joined : Intake) (s : State),
    s.takes h [.T] 39 → s.intake.state = .accepting → s.intake.queue.length < 16 → s.placesLine index d position →
    joined = s.intakeWith (scanned index left right flags photosites s.clock position) d →
    ∃ t, exec (.scanLine h index left right flags photosites) s = .next t ∧
      (t.link .T).slot = (s.link .T).slot ∧
      (s.session.state ≠ .stalled ∨ t.session.state ≠ .returning → t.intake = joined) ∧
      (s.session.state = .stalled → t.session.state = .returning →
        t.intake = { joined with state := .off, queue := [], decode := none }) ∧
      (t.lineReady = true ↔ t.intake.state = .accepting ∧ t.intake.queue.length ≤ 12) ∧
      (s.session.state = .playing → t.stallTimer = some (s.clock + BitVec.ofNat 32 s.timing.stallTimeout)) ∧
      (s.session.state = .starting ∨ s.session.state = .playing →
        (s.speed.anchor = none ∨ s.intake.expected = none →
          t.speed = { s.speed with anchor := some ⟨position, s.clock⟩ } ∧ t.session = s.session) ∧
        (∀ a, s.speed.anchor = some a → s.intake.expected ≠ none → (position - a.position).toNat < 32 →
          t.speed = s.speed ∧ t.session = s.session)) ∧
      (s.session.state ∉ [SessionState.starting, .playing] →
        (s.session.state = .stalled → s.session.causes.noLines = false) →
        Hears s t h 0#8 ∧
        { t with linkT := s.linkT, linkC := s.linkC, linkS := s.linkS, intake := s.intake } = s)

/-- In STALLED an accepted line ends NO_LINES: other causes stay held, and an emptied set leads to STARTING with a fresh startup
timer, the line itself not taken as the anchor (R51, R59, R64). -/
def Obligations.AcceptedLineEndsNoLines : Prop :=
  ∀ (h : Head) (index left right : BitVec 16) (flags : BitVec 8) (photosites : BitVec 256) (d : Nat) (position : Position)
    (s : State),
    s.takes h [.T] 39 → s.intake.state = .accepting → s.intake.queue.length < 16 → s.placesLine index d position →
    s.session.state = .stalled → s.session.causes.noLines = true →
    ∃ t, exec (.scanLine h index left right flags photosites) s = .next t ∧
      (if s.session.causes.tracking ∨ s.session.causes.intakeHalt then
        Hears s t h 0#8 ∧ t.session = { s.session with causes := { s.session.causes with noLines := false } } ∧
        t.speed = s.speed
      else if s.session.endConfirmed = false ∧ s.tracker.state ≠ .lost then
        Hears s t h 0x01#8 ∧ t.session = { s.session with state := .starting, causes := CauseSet.empty } ∧
        Silences s t ∧ t.startupTimer = some (s.clock + 3000000#32) ∧
        t.speed = { s.speed.inactive with lastRatio := 0 }
      else t.session.state = (if s.session.endConfirmed then .returning else .stalled))

/-- While the session runs, a line that follows the anchor by 32 or more positions is measured, and the anchor moves to it. Over a
time of 0 or more than a second nothing else in the monitor changes and no event is raised; else the ratio, the trim and the
out-of-band count are formed, and the runs and the condition move by the tables of R47 and R48 (R44 to R48). -/
def Obligations.MeasurementMovesTheSpeedMonitor : Prop :=
  ∀ (h : Head) (index left right : BitVec 16) (flags : BitVec 8) (photosites : BitVec 256) (e : LineIndex) (a : Mark)
    (position : Position) (k T q : Nat) (s : State),
    s.takes h [.T] 39 → s.intake.state = .accepting → s.intake.queue.length < 16 →
    s.intake.expected = some e → s.placesLine index (index - e).toNat position → s.speed.anchor = some a →
    k = (position - a.position).toNat → 32 ≤ k → T = (s.clock - a.time).toNat →
    q = min 65535 (k * 1000000000 / (T * (s.speed.nominalRate * s.speed.tempo / 256))) →
    (s.session.state = .starting ∨ s.session.state = .playing) →
    ∃ t good, exec (.scanLine h index left right flags photosites) s = .next t ∧
      (good ↔ (1000 - (q : Int)).natAbs ≤ s.timing.speedTolerance) ∧
      t.speed.anchor = some ⟨position, s.clock⟩ ∧
      (T = 0 ∨ 1000000 < T →
        t.speed = { s.speed with anchor := some ⟨position, s.clock⟩ } ∧ t.session = s.session ∧ Hears s t h 0#8 ∧
        { t with
          linkT := s.linkT, linkC := s.linkC, linkS := s.linkS, intake := s.intake, speed := s.speed
          stallTimer := s.stallTimer } = s) ∧
      (0 < T → T ≤ 1000000 →
        t.speed.lastRatio = q ∧ t.speed.trim = max (-125) (min 125 (1000 - (q : Int))) ∧
        (good → t.speed.outOfBand = s.speed.outOfBand) ∧ (¬ good → t.speed.outOfBand = bump s.speed.outOfBand 1) ∧
        (s.session.state = .starting →
          (¬ good → t.speed.inBandRun = 0 ∧ t.session = s.session) ∧
          (good → s.speed.inBandRun < 2 → t.speed.inBandRun = s.speed.inBandRun + 1 ∧ t.session = s.session) ∧
          (good → 2 ≤ s.speed.inBandRun → t.speed.condition = .locked ∧ t.speed.outBandRun = 0 ∧
            t.session = { s.session with state := .playing, causes := CauseSet.empty })) ∧
        (s.session.state = .playing →
          t.session = s.session ∧ t.stallTimer = some (s.clock + BitVec.ofNat 32 s.timing.stallTimeout) ∧
          (s.speed.condition = .offSpeed → good →
            t.speed.condition = .locked ∧ t.speed.outBandRun = 0 ∧ Hears s t h 0x02#8) ∧
          (s.speed.condition = .offSpeed → ¬ good → t.speed.condition = .offSpeed ∧
            t.speed.outBandRun = s.speed.outBandRun ∧ Hears s t h 0#8) ∧
          (s.speed.condition = .locked → good → t.speed.condition = .locked ∧ t.speed.outBandRun = 0 ∧ Hears s t h 0#8) ∧
          (s.speed.condition = .locked → ¬ good → s.speed.outBandRun < 3 →
            t.speed.condition = .locked ∧ t.speed.outBandRun = s.speed.outBandRun + 1 ∧ Hears s t h 0#8) ∧
          (s.speed.condition = .locked → ¬ good → 3 ≤ s.speed.outBandRun →
            t.speed.condition = .offSpeed ∧ t.speed.outBandRun = 0 ∧ Hears s t h 0x02#8)))

/-- A SCAN_LINE that completes the third in-band measurement in STARTING locks: the state becomes PLAYING and SESSION is raised, the
startup timer stops and the stall timer starts at the lock time, and the roll pedal requests are loaded from their tracks. Every
note track that is OPEN, in increasing number, is handed to the note interpreter as an onset at the lock time with the settings
in force: queue, keys, struck keys, counters and DROP are what those onsets make of them, and nothing else changes but the line's
own effects on intake and monitor (R47, R60 to R62, R97, R103, R153). -/
def Obligations.LockRestrikesHeldNotes : Prop :=
  ∀ (h : Head) (index left right : BitVec 16) (flags : BitVec 8) (photosites : BitVec 256) (e : LineIndex) (a : Mark)
    (position : Position) (k T q : Nat) (s restruck : State),
    s.takes h [.T] 39 → s.intake.state = .accepting → s.intake.queue.length < 16 →
    s.intake.expected = some e → s.placesLine index (index - e).toNat position → s.speed.anchor = some a →
    k = (position - a.position).toNat → 32 ≤ k → T = (s.clock - a.time).toNat → 0 < T → T ≤ 1000000 →
    q = min 65535 (k * 1000000000 / (T * (s.speed.nominalRate * s.speed.tempo / 256))) →
    (1000 - (q : Int)).natAbs ≤ s.timing.speedTolerance → s.session.state = .starting → 2 ≤ s.speed.inBandRun →
    restruck = ((List.finRange 88).filter fun n => s.detectors[noteTrackOf n].isOpen).foldl
      (fun u n => u.noteOnset s.timing s.console n s.clock)
      { s with session := { s.session with state := .playing, causes := CauseSet.empty } } →
    ∃ t, exec (.scanLine h index left right flags photosites) s = .next t ∧ Hears restruck t h 0x01#8 ∧
      t.session = { s.session with state := .playing, causes := CauseSet.empty } ∧
      t.queue = restruck.queue ∧ t.nextSeq = restruck.nextSeq ∧ t.strikes = restruck.strikes ∧
      (∀ j, t.key j = restruck.key j) ∧ (∀ n : NoteTrack, t.struckKeys[n] = restruck.struckKeys[n]) ∧
      (∀ n : NoteTrack, s.detectors[noteTrackOf n].isOpen → t.struckKeys[n].isSome) ∧
      (∀ n : NoteTrack, ¬ s.detectors[noteTrackOf n].isOpen → t.struckKeys[n] = s.struckKeys[n]) ∧
      t.startupTimer = none ∧ t.stallTimer = some (s.clock + BitVec.ofNat 32 s.timing.stallTimeout) ∧
      t.pedals.rollDamper = (if s.detectors[(1 : Track)].isOpen then 127 else 0) ∧
      t.pedals.rollSoft = (if s.detectors[(100 : Track)].isOpen then 127 else 0) ∧
      t.pedals = { s.pedals with
        rollDamper := t.pedals.rollDamper
        rollSoft := t.pedals.rollSoft
        mergedDamper := mergePosition s.console.mode t.pedals.rollDamper s.pedals.consoleDamper
        mergedSoft := mergePosition s.console.mode t.pedals.rollSoft (if s.pedals.consoleSoft then 127 else 0) } ∧
      t.shaping = s.shapingFor t.pedals.mergedDamper t.pedals.mergedSoft ∧
      { t with
        linkT := s.linkT, linkC := s.linkC, linkS := s.linkS, session := s.session, intake := s.intake, speed := s.speed
        queue := s.queue, nextSeq := s.nextSeq, strikes := s.strikes, keys := s.keys, struckKeys := s.struckKeys
        pedals := s.pedals, shaping := s.shaping, startupTimer := s.startupTimer, stallTimer := s.stallTimer } = s

/-! ## The roll and the intake restart (chapters 1 and 4) -/

/-- ROLL_LOADED outside NO_ROLL and REWOUND outside RETURNING are refused with BUSY. Else the session enters LOADED, the intake
accepts with its index open from position 0, tracker, detectors and end flag start afresh, and CH0 and CH1 rest on the table's
level for code 0. ROLL_LOADED stores the clamped nominal rate, REWOUND keeps rate and last cause (R3, R26, R27, R42, R57, R71,
R91). -/
def Obligations.RollLoadedAndRewoundStartTheRoll : Prop :=
  ∀ (h : Head) (rate : BitVec 16) (s : State),
    (s.takes h [.T] 2 → s.session.state ≠ .noRoll → OnlyAnswers (.rollLoaded h rate) h (refusal h .busy) s) ∧
    (s.takes h [.T] 2 → s.session.state = .noRoll →
      ∃ t, exec (.rollLoaded h rate) s = .next t ∧ Answers s t h (okReply h) 0x01#8 ∧ StartsRoll s t ∧
        t.speed = { s.speed.inactive with nominalRate := max 100 (min 1500 rate.toNat) }) ∧
    (s.takes h [.T] 0 → s.session.state ≠ .returning → OnlyAnswers (.rewound h) h (refusal h .busy) s) ∧
    (s.takes h [.T] 0 → s.session.state = .returning →
      ∃ t, exec (.rewound h) s = .next t ∧ Answers s t h (okReply h) 0x01#8 ∧ StartsRoll s t ∧
        t.speed = s.speed.inactive)

/-- ROLL_REMOVED: outside NO_ROLL a silence entry to NO_ROLL with no last cause, the intake OFF and emptied, tracker and
detectors afresh, the step codes 0; in NO_ROLL answered OK with no change (R3, R26, R27, R72, R92). -/
def Obligations.RollRemovedSilencesAndClears : Prop :=
  ∀ (h : Head) (s : State), s.takes h [.T] 0 →
    (s.session.state = .noRoll → OnlyAnswers (.rollRemoved h) h (okReply h) s) ∧
    (s.session.state ≠ .noRoll →
      ∃ t, exec (.rollRemoved h) s = .next t ∧ Answers s t h (okReply h) 0x01#8 ∧
        t.session = { state := .noRoll, causes := CauseSet.empty, lastCause := none, endConfirmed := false } ∧
        t.queue = [] ∧ t.strikes = s.cancelledStrikes ∧ t.slots = [] ∧
        (∀ k, t.key k = { s.key k with phase := s.cutPhase k, owner := none }) ∧ (∀ n : NoteTrack, t.struckKeys[n] = none) ∧
        t.pedals = s.silentPedals ∧
        t.shaping = { s.shapingFor s.silentPedals.mergedDamper s.silentPedals.mergedSoft with bassCode := 0, trebleCode := 0 } ∧
        t.intake = { s.intake with state := .off, queue := [], decode := none, expected := none, restartBase := 0#32,
                                   lastPosition := none } ∧
        t.tracker = ⟨.unseeded, none, 0, 0⟩ ∧ (∀ k : Track, t.detectors[k] = .closed) ∧
        t.speed = s.speed.inactive ∧ t.stallTimer = none ∧ t.startupTimer = none ∧
        { t with
          linkT := s.linkT, linkC := s.linkC, linkS := s.linkS, session := s.session, queue := s.queue, strikes := s.strikes
          slots := s.slots, keys := s.keys, struckKeys := s.struckKeys, pedals := s.pedals, shaping := s.shaping
          intake := s.intake, tracker := s.tracker, detectors := s.detectors, speed := s.speed, stallTimer := s.stallTimer
          startupTimer := s.startupTimer } = s)

/-- INTAKE_RESTART: with the intake OFF nothing changes; else the queue and the decode are dropped, the index is open, the
restart base is one past the last position, and the intake accepts. INTAKE_HALT leaves the session's stall causes, and an
emptied set leads on from STALLED; an intake that is left accepting asserts LINE_RDY (R8, R10, R11, R64). -/
def Obligations.IntakeRestartReopensTheIntake : Prop :=
  ∀ (h : Head) (s : State), s.takes h [.T] 0 →
    (s.intake.state = .off → OnlyAnswers (.intakeRestart h) h (okReply h) s) ∧
    (s.intake.state ≠ .off →
      ∃ t, exec (.intakeRestart h) s = .next t ∧ (t.link .T).slot = okReply h ∧
        (t.session.state ≠ .returning →
          t.intake = { s.intake with state := .accepting, queue := [], decode := none, expected := none
                                     restartBase := (s.intake.lastPosition.map (· + 1#32)).getD 0#32 } ∧
          t.lineReady = true) ∧
        (s.session.state ≠ .stalled ∨ s.session.causes.intakeHalt = false →
          Answers s t h (okReply h) 0#8 ∧ { t with linkT := s.linkT, linkC := s.linkC, linkS := s.linkS, intake := s.intake } = s) ∧
        (s.session.state = .stalled → s.session.causes.intakeHalt = true →
          (if s.session.causes.noLines ∨ s.session.causes.tracking then
            t.session = { s.session with causes := { s.session.causes with intakeHalt := false } }
          else t.session.state =
            (if s.session.endConfirmed then .returning else if s.tracker.state = .lost then .stalled else .starting))))

/-! ## Decodes (chapters 2, 4, 6 and 9) -/

/-- A completed decode takes the head line out of the queue, frees its place, and begins the decode of the next line with the
settings in force now; a completion that leads to RETURNING leaves the intake OFF and empty. While the end-confirmed flag is set
it applies nothing: only the intake changes. LINE_RDY follows the free room. A decode completes later than it begins: that a
DECODE_COMPLETION given at the very moment of its beginning changes nothing is the model's form of it (log entry 6) (R10 to R12,
R38). -/
def Obligations.DecodeCompletionTakesTheHeadLine : Prop :=
  ∀ (d : Decode) (l : Line) (rest : List Line) (s : State) (next : Intake),
    s.intake.decode = some d → s.intake.queue = l :: rest →
    next = { s.intake with queue := rest
                           decode := if rest = [] then none else some ⟨s.clock, s.timing, s.console⟩ } →
    (d.begun = s.clock → exec .decodeCompletion s = .next s) ∧
    (d.begun ≠ s.clock →
      (s.session.endConfirmed = true → exec .decodeCompletion s = .next { s with intake := next }) ∧
      (s.session.state ≠ .returning →
        ∃ t, exec .decodeCompletion s = .next t ∧
          (t.session.state ≠ .returning → t.intake = next) ∧
          (t.lineReady = true ↔ t.intake.state = .accepting ∧ t.intake.queue.length ≤ 12) ∧
          (t.session.state = .returning → t.intake = { s.intake with state := .off, queue := [], decode := none })))

/-- The edge judgement of a decoded line moves the filter, the tracking state and the runs by the tables of R20 and R22 to R24;
a loss and a regain latch TRACKING, and a line that a LOST tracker does not regain with changes nothing else. -/
def Obligations.TrackerFollowsTheEdges : Prop :=
  ∀ (d : Decode) (l : Line) (rest : List Line) (s : State) (valid : Prop) (c w : Nat) (f : Filter),
    s.intake.decode = some d → d.begun ≠ s.clock → s.intake.queue = l :: rest → s.session.endConfirmed = false →
    (valid ↔ l.leftValid = true ∧ l.rightValid = true ∧ l.left + 3284 ≤ l.right ∧ l.right ≤ l.left + 3628) →
    c = (l.left + l.right) / 2 → w = l.right - l.left →
    (s.tracker.filter = none → f = ⟨16 * c, 16 * w⟩) →
    (∀ g, s.tracker.filter = some g →
      (f.cf16 : Int) = g.cf16 + Int.tdiv (16 * (c : Int) - g.cf16) 8 ∧
      (f.wf16 : Int) = g.wf16 + Int.tdiv (16 * (w : Int) - g.wf16) 32) →
    ∃ t, exec .decodeCompletion s = .next t ∧
      (valid → s.tracker.state ≠ .lost →
        t.tracker = { s.tracker with state := .locked, filter := some f, invalidRun := 0 }) ∧
      (¬ valid → s.tracker.state ≠ .lost → s.tracker.invalidRun < 47 →
        t.tracker = { s.tracker with
          state := if s.tracker.state = .unseeded then .unseeded else .holding, invalidRun := s.tracker.invalidRun + 1 }) ∧
      (¬ valid → s.tracker.state ≠ .lost → 47 ≤ s.tracker.invalidRun →
        t.tracker = { state := .lost, filter := s.tracker.filter, invalidRun := 48, validRun := 0 } ∧
        ∀ m, (t.link m).latch &&& 0x04#8 = 0x04#8) ∧
      (¬ valid → s.tracker.state = .lost →
        t.tracker = { s.tracker with validRun := 0 } ∧ { t with tracker := s.tracker, intake := s.intake } = s) ∧
      (valid → s.tracker.state = .lost → s.tracker.validRun < 7 →
        t.tracker = { s.tracker with filter := some f, validRun := s.tracker.validRun + 1 } ∧
        { t with tracker := s.tracker, intake := s.intake } = s) ∧
      (valid → s.tracker.state = .lost → 7 ≤ s.tracker.validRun →
        t.tracker = { state := .locked, filter := some f, invalidRun := 0, validRun := 0 } ∧
        ∀ m, (t.link m).latch &&& 0x04#8 = 0x04#8)

/-- On a sampled line each of the 101 detectors takes the sample of its own photosite column, dark outside 0..255, and moves by
the vote of two light in three and the close run of three dark (R20, R21, R28 to R30). -/
def Obligations.DetectorsVoteAndClose : Prop :=
  ∀ (d : Decode) (l : Line) (rest : List Line) (s : State) (f : Option Filter) (C W p : Int) (col : Track → Int)
    (light : Track → Bool),
    s.intake.decode = some d → d.begun ≠ s.clock → s.intake.queue = l :: rest → s.session.endConfirmed = false →
    (s.tracker.state ≠ .lost ∨ (l.validEdges = true ∧ 7 ≤ s.tracker.validRun)) →
    f = (if l.validEdges then some (filterAfter s.tracker.filter l) else s.tracker.filter) →
    (f = none → C = 2048 ∧ W = 3456) → (∀ g, f = some g → C = g.cf16 / 16 ∧ W = g.wf16 / 16) → p = 512 * W / 3456 →
    (∀ k : Track, col k = (C + (2 * (k.val : Int) - 100) * p / 32 + 8) / 16) →
    (∀ k : Track, light k = true ↔ 0 ≤ col k ∧ col k ≤ 255 ∧ l.photosites.getLsbD (col k).toNat = true) →
    ∃ t, exec .decodeCompletion s = .next t ∧ ∀ k : Track,
      (s.detectors[k] = .closed →
        t.detectors[k] = if light k then .candidate ⟨l.position, l.stamp⟩ 1 1 else .closed) ∧
      (∀ first seen count, s.detectors[k] = .candidate first seen count →
        t.detectors[k] =
          if 2 ≤ count + (light k).toNat then .opened first .zero
          else if 3 ≤ seen + 1 then .closed
          else .candidate first (seen + 1) (count + (light k).toNat)) ∧
      (∀ onset dark, s.detectors[k] = .opened onset dark → light k = true → t.detectors[k] = .opened onset .zero) ∧
      (∀ onset, s.detectors[k] = .opened onset .zero → light k = false →
        t.detectors[k] = .opened onset (.one ⟨l.position, l.stamp⟩)) ∧
      (∀ onset m, s.detectors[k] = .opened onset (.one m) → light k = false → t.detectors[k] = .opened onset (.two m)) ∧
      (∀ onset m, s.detectors[k] = .opened onset (.two m) → light k = false → t.detectors[k] = .closed)

/-- A decode that changes a division's step code hands the code formed by its three level tracks to the shaping engine: the
channel takes the code and the table's level as its target, and no level moves (R34, R79). A sampled line with no tracking report
and no end mark hands its reports on in the order of R35 with all its samples applied: DAMPER and SOFT changes to the pedal unit,
step codes, then every offset and then every onset, each in increasing note-track number, with their own times and the settings
of the decode's beginning; the next state is what those make of the state, with the next line's intake (R12, R32 to R35, R106,
R151). -/
def Obligations.DecodeHandsOnItsReports : Prop :=
  ∀ (d : Decode) (l : Line) (rest : List Line) (s : State) (code : State → Bool → Nat) (next : Intake),
    s.intake.decode = some d → d.begun ≠ s.clock → s.intake.queue = l :: rest →
    (∀ u bass, code u bass =
      (if u.detectors[if bass then (4 : Track) else 97].isOpen then 1 else 0) +
      (if u.detectors[if bass then (5 : Track) else 96].isOpen then 2 else 0) +
      (if u.detectors[if bass then (6 : Track) else 95].isOpen then 4 else 0)) →
    next = { s.intake with queue := rest
                           decode := if rest = [] then none else some ⟨s.clock, s.timing, s.console⟩ } →
    ∃ t, exec .decodeCompletion s = .next t ∧
      (code t true = code s true → t.shaping.bassCode = s.shaping.bassCode ∧ t.shaping.ch0 = s.shaping.ch0) ∧
      (code t true ≠ code s true → t.shaping.bassCode.val = code t true ∧
        t.shaping.ch0 = { s.shaping.ch0 with target := point s.shaping.stepTable (code t true) * 64 }) ∧
      (code t false = code s false → t.shaping.trebleCode = s.shaping.trebleCode ∧ t.shaping.ch1 = s.shaping.ch1) ∧
      (code t false ≠ code s false → t.shaping.trebleCode.val = code t false ∧
        t.shaping.ch1 = { s.shaping.ch1 with target := point s.shaping.stepTable (code t false) * 64 }) ∧
      t.shaping.ch2.level = s.shaping.ch2.level ∧ t.shaping.ch3.level = s.shaping.ch3.level ∧
      (s.session.endConfirmed = false → s.tracker.state ≠ .lost → (l.validEdges = true ∨ s.tracker.invalidRun < 47) →
        (∀ onset dark, t.detectors[(0 : Track)] = .opened onset dark → (l.position - onset.position).toNat < 31) →
        t = { ({ s with tracker := t.tracker, detectors := t.detectors } : State).reported d s.detectors with
              intake := next })

/-- The end mark is confirmed at a sampled line that leaves END open 31 or more positions past its onset, after every other report
of the line: the flag is set, and the session goes on by its state as those reports left it. PLAYING has an END entry inserted,
due one look-ahead and 2,000,000 µs after the stamp, and leads to RETURNING at once only by the full queue without a STRIKE of
R132; STARTING goes to RETURNING; other states record the flag. On the line of a loss a running session is STALLED with TRACKING
by then, and on the line of a regain a session STALLED by TRACKING alone is STARTING (R23, R24, R35 to R37, R63, R64, R69). -/
def Obligations.EndMarkConfirmation : Prop :=
  ∀ (d : Decode) (l : Line) (rest : List Line) (s : State) (next : Intake) (loss regain : Prop),
    s.intake.decode = some d → d.begun ≠ s.clock → s.intake.queue = l :: rest → s.session.endConfirmed = false →
    next = { s.intake with queue := rest
                           decode := if rest = [] then none else some ⟨s.clock, s.timing, s.console⟩ } →
    (loss ↔ s.tracker.state ≠ .lost ∧ l.validEdges = false ∧ 47 ≤ s.tracker.invalidRun) →
    (regain ↔ s.tracker.state = .lost ∧ l.validEdges = true ∧ 7 ≤ s.tracker.validRun) →
    (s.tracker.state ≠ .lost ∨ regain) →
    ∃ t, exec .decodeCompletion s = .next t ∧
      ((∀ onset dark, t.detectors[(0 : Track)] = .opened onset dark → (l.position - onset.position).toNat < 31) →
        t.session.endConfirmed = false ∧ (¬ loss → ¬ regain → t.session = s.session)) ∧
      (∀ onset dark, t.detectors[(0 : Track)] = .opened onset dark → 31 ≤ (l.position - onset.position).toNat →
        t.session.endConfirmed = true ∧
        (¬ loss → ¬ regain →
          (s.session.state = .starting →
            t.session = { state := .returning, causes := CauseSet.empty, lastCause := some .endMark, endConfirmed := true }) ∧
          (s.session.state ≠ .starting → s.session.state ≠ .playing →
            t.session = { s.session with endConfirmed := true }) ∧
          (s.session.state = .playing → ∃ u v : State,
            u = ({ s with tracker := t.tracker, detectors := t.detectors } : State).reported d s.detectors ∧
            InsertsOther { u with session := { s.session with endConfirmed := true } } v
              (l.stamp + BitVec.ofNat 32 (d.timing.lookAhead + 2000000)) .endMark ∧
            (u.queue.length < 96 ∨ (∃ x ∈ u.queue, x.isStrike = true) →
              t = { v with intake := next } ∧ t.session = { s.session with endConfirmed := true }) ∧
            (96 ≤ u.queue.length → (∀ x ∈ u.queue, x.isStrike = false) →
              t = v ∧ t.session =
                { state := .returning, causes := CauseSet.empty, lastCause := some .endMark, endConfirmed := true }))) ∧
        (loss →
          t.session =
            (if s.session.state = .starting ∨ s.session.state = .playing then
              { s.session with state := .stalled, causes := ⟨false, true, false⟩, endConfirmed := true }
            else if s.session.state = .stalled then
              { s.session with causes := { s.session.causes with tracking := true }, endConfirmed := true }
            else { s.session with endConfirmed := true })) ∧
        (regain → s.session.state ∉ [SessionState.starting, .playing] →
          t.session =
            (if s.session.state = .stalled ∧ s.session.causes = ⟨false, true, false⟩ then
              { state := .returning, causes := CauseSet.empty, lastCause := some .endMark, endConfirmed := true }
            else if s.session.state = .stalled then
              { s.session with causes := { s.session.causes with tracking := false }, endConfirmed := true }
            else { s.session with endConfirmed := true })))

/-! ## Notes (chapters 6, 7 and 9) -/

/-- An onset in PLAYING chooses the key its track owns or the key the transposition maps it to, inserts a TAKEOVER release for
another owner of it, claims it, inserts a strike with the figures of chapters 6 and 7, due at the later of its intended fire time
and now, and records the struck key. Each insertion is placed, makes room, or is dropped or performed at once by the rules of a
full queue, whatever the queue holds; that the owner of a dropped strike is judged with the new entry in the queue is the model's
reading (log entry 13). In another state an onset does nothing (R96, R101, R103 to R105, R123 to R125, R130 to R132). -/
def Obligations.OnsetClaimsAKeyAndQueuesItsStrike : Prop :=
  ∀ (s : State) (t : Timing) (c : Console) (n : NoteTrack) (onset : Time),
    (s.session.state ≠ .playing → s.noteOnset t c n onset = s) ∧
    (s.session.state = .playing →
      -12 ≤ c.transpose → c.transpose ≤ 12 → t.lookAhead ≤ 500000 → (s.clock - onset).toNat < 2147483648 →
      ∃ (k : Key) (st : Strike) (due ahead : Time) (u v : State),
        (∀ j, (s.key j).owner = some (.note n) → (s.key k).owner = some (.note n)) ∧
        ((∀ j, (s.key j).owner ≠ some (.note n)) →
          ∃ m : Int, m = n.val + c.transpose ∧ (k.val : Int) = (if 87 < m then m - 12 else if m < 0 then m + 12 else m)) ∧
        st.key = k ∧ st.owner = .note n ∧ st.releaseAfter = false ∧ OnsetIntensity s t c n k st.intensity ∧
        StrikeFigures s k st.intensity st.width st.flight ∧ st.sound = onset + BitVec.ofNat 32 t.lookAhead ∧
        due = (if (s.clock - onset).toNat + st.flight < t.lookAhead then st.sound - BitVec.ofNat 32 st.flight
          else s.clock) ∧
        ahead = due - BitVec.ofNat 32 ((s.keyCal k).settle + t.repeatGap) ∧
        ((s.key k).owner = none ∨ (s.key k).owner = some (.note n) → u = s) ∧
        (∀ m, (s.key k).owner = some m → m ≠ .note n →
          InsertsOther s u (if notLater s.clock ahead then ahead else s.clock) (.takeover k m)) ∧
        InsertsStrike (u.setKey k { u.key k with owner := some (.note n) }) v due st ∧
        s.noteOnset t c n onset = { v with struckKeys := s.struckKeys.set n (some k) })

/-- An offset whose note has a struck key inserts the release of that key for its track, due at the later of now and offset plus
look-ahead less lead, and clears the struck key; without one it does nothing. A DAMPER or SOFT change in PLAYING inserts a PEDAL
entry by its own lead, and in any other state does nothing. Each entry is placed, makes room by dropping a strike, or, on a full
queue without one, is performed at once; that the owner of a dropped strike is judged with the new entry in the queue is the
model's reading (log entry 13) (R106, R130, R132, R151). -/
def Obligations.OffsetsAndPedalChangesQueueEntries : Prop :=
  ∀ (s : State) (t : Timing) (n : NoteTrack) (p : Pedal) (opening : Bool) (change : Time) (due : Nat → Time),
    (∀ lead, due lead =
      if notLater s.clock (change + BitVec.ofNat 32 (t.lookAhead - lead)) then change + BitVec.ofNat 32 (t.lookAhead - lead)
      else s.clock) →
    (s.struckKeys[n] = none → s.noteOffset t n change = s) ∧
    (∀ k, s.struckKeys[n] = some k → ∃ u, InsertsOther s u (due t.releaseLead) (.release k (.note n)) ∧
      s.noteOffset t n change = { u with struckKeys := s.struckKeys.set n none }) ∧
    (s.session.state ≠ .playing → s.pedalChange t p opening change = s) ∧
    (s.session.state = .playing →
      InsertsOther s (s.pedalChange t p opening change) (due t.pedalLead) (.pedal p (if opening then 127 else 0)))

/-! ## C-link requests (chapters 3, 4, 6 and 9) -/

/-- PLAY is refused BUSY outside LOADED and PAUSED, DRIVE_OFF while ACT_EN is deasserted, and BUSY while the intake is HALTED;
else the session enters STARTING, in silence and with a fresh startup timer, and goes on at once to RETURNING with a confirmed
end mark or to STALLED with a LOST tracker (R49, R52, R58, R59, R74). -/
def Obligations.PlayStartsThePerformance : Prop :=
  ∀ (h : Head) (s : State), s.takes h [.C] 0 →
    (s.session.state ∉ [SessionState.loaded, .paused] → OnlyAnswers (.play h) h (refusal h .busy) s) ∧
    (s.session.state ∈ [SessionState.loaded, .paused] → s.drive.actEn = false →
      OnlyAnswers (.play h) h (refusal h .driveOff) s) ∧
    (s.session.state ∈ [SessionState.loaded, .paused] → s.drive.actEn = true → s.intake.state = .halted →
      OnlyAnswers (.play h) h (refusal h .busy) s) ∧
    (s.session.state ∈ [SessionState.loaded, .paused] → s.drive.actEn = true → s.intake.state ≠ .halted →
      ∃ t, exec (.play h) s = .next t ∧ Answers s t h (okReply h) 0x01#8 ∧ Silences s t ∧
        t.speed = { s.speed.inactive with lastRatio := 0 } ∧ t.stallTimer = s.stallTimer ∧
        (if s.session.endConfirmed then
          t.session = s.session.movedTo .returning (some .endMark) ∧ t.startupTimer = none ∧
          t.intake = { s.intake with state := .off, queue := [], decode := none }
        else if s.tracker.state = .lost then
          t.session = { s.session with state := .stalled, causes := ⟨false, true, false⟩ } ∧ t.startupTimer = none ∧
          t.intake = s.intake
        else
          t.session = s.session.movedTo .starting s.session.lastCause ∧ t.startupTimer = some (s.clock + 3000000#32) ∧
          t.intake = s.intake) ∧
        { t with
          linkT := s.linkT, linkC := s.linkC, linkS := s.linkS, session := s.session, queue := s.queue, strikes := s.strikes
          slots := s.slots, keys := s.keys, struckKeys := s.struckKeys, pedals := s.pedals, shaping := s.shaping
          speed := s.speed, startupTimer := s.startupTimer, intake := s.intake } = s)

/-- PAUSE in STARTING, PLAYING or STALLED enters PAUSED with no last cause, in silence; in every other state it is refused with
BUSY (R66, R74). -/
def Obligations.PauseHoldsThePerformance : Prop :=
  ∀ (h : Head) (s : State), s.takes h [.C] 0 →
    (s.session.state ∉ [SessionState.starting, .playing, .stalled] → OnlyAnswers (.pause h) h (refusal h .busy) s) ∧
    (s.session.state ∈ [SessionState.starting, .playing, .stalled] →
      ∃ t, exec (.pause h) s = .next t ∧ Answers s t h (okReply h) 0x01#8 ∧ Silences s t ∧ StopsRunning s t ∧
        t.session = s.session.movedTo .paused none ∧
        { t with
          linkT := s.linkT, linkC := s.linkC, linkS := s.linkS, session := s.session, queue := s.queue, strikes := s.strikes
          slots := s.slots, keys := s.keys, struckKeys := s.struckKeys, pedals := s.pedals, shaping := s.shaping
          speed := s.speed, startupTimer := s.startupTimer, stallTimer := s.stallTimer } = s)

/-- STOP enters RETURNING with last cause STOP from every state but NO_ROLL, where it is refused with BUSY, and RETURNING, where
it is answered OK with no change; the entry is silent and empties the intake (R3, R10, R67, R74). -/
def Obligations.StopRewindsTheRoll : Prop :=
  ∀ (h : Head) (s : State), s.takes h [.C] 0 →
    (s.session.state = .noRoll → OnlyAnswers (.stop h) h (refusal h .busy) s) ∧
    (s.session.state = .returning → OnlyAnswers (.stop h) h (okReply h) s) ∧
    (s.session.state ∉ [SessionState.noRoll, .returning] →
      ∃ t, exec (.stop h) s = .next t ∧ Answers s t h (okReply h) 0x01#8 ∧ Silences s t ∧ StopsRunning s t ∧
        t.session = s.session.movedTo .returning (some .stop) ∧
        t.intake = { s.intake with state := .off, queue := [], decode := none } ∧
        { t with
          linkT := s.linkT, linkC := s.linkC, linkS := s.linkS, session := s.session, queue := s.queue, strikes := s.strikes
          slots := s.slots, keys := s.keys, struckKeys := s.struckKeys, pedals := s.pedals, shaping := s.shaping
          speed := s.speed, startupTimer := s.startupTimer, stallTimer := s.stallTimer, intake := s.intake } = s)

/-- SET_TEMPO stores the factor clamped to 128..512; a changed one makes the anchor absent and clears the in-band run in STARTING
and the out-band run in PLAYING, and an equal one changes nothing (R43). -/
def Obligations.SetTempoStoresTheClampedFactor : Prop :=
  ∀ (h : Head) (factor : BitVec 16) (s : State), s.takes h [.C] 2 →
    ∃ t f, exec (.setTempo h factor) s = .next t ∧ f = max 128 (min 512 factor.toNat) ∧ Answers s t h (okReply h) 0#8 ∧
      t.speed =
        (if f = s.speed.tempo then s.speed
        else if s.session.state = .starting then { s.speed with tempo := f, anchor := none, inBandRun := 0 }
        else if s.session.state = .playing then { s.speed with tempo := f, anchor := none, outBandRun := 0 }
        else { s.speed with tempo := f }) ∧
      { t with linkT := s.linkT, linkC := s.linkC, linkS := s.linkS, speed := s.speed } = s

/-- SET_TRANSPOSE stores its signed value clamped to -12..12, SET_LEVERS its levers clamped to 0..1023, and SET_SHADING its mode
and clamped weight and gain together, refusing a mode above 2 with RANGE; a changed mode forms the pedal merge again at once
(R109, R110, R111, R155, R156). -/
def Obligations.ConsoleSettingsAreStoredClamped : Prop :=
  ∀ (h : Head) (value mode : BitVec 8) (weight gain bass treble : BitVec 16) (s : State),
    (s.takes h [.C] 1 →
      ∃ t, exec (.setTranspose h value) s = .next t ∧ Answers s t h (okReply h) 0#8 ∧
        t.console = { s.console with transpose := max (-12) (min 12 value.toInt) } ∧
        { t with linkT := s.linkT, linkC := s.linkC, linkS := s.linkS, console := s.console } = s) ∧
    (s.takes h [.C] 4 →
      ∃ t, exec (.setLevers h bass treble) s = .next t ∧ Answers s t h (okReply h) 0#8 ∧
        t.console = { s.console with bassLever := min 1023 bass.toNat, trebleLever := min 1023 treble.toNat } ∧
        { t with linkT := s.linkT, linkC := s.linkC, linkS := s.linkS, console := s.console } = s) ∧
    (s.takes h [.C] 5 → 2 < mode.toNat → OnlyAnswers (.setShading h mode weight gain) h (refusal h .range) s) ∧
    (s.takes h [.C] 5 → mode.toNat ≤ 2 →
      ∃ t, exec (.setShading h mode weight gain) s = .next t ∧ Answers s t h (okReply h) 0#8 ∧
        t.console.mode.code = mode ∧
        t.console = { s.console with
          mode := t.console.mode, blendWeight := min 256 weight.toNat, masterGain := min 384 gain.toNat } ∧
        (t.console.mode = s.console.mode → t.pedals = s.pedals ∧ t.shaping = s.shaping) ∧
        (t.console.mode ≠ s.console.mode →
          t.pedals = { s.pedals with
            mergedDamper := mergePosition t.console.mode s.pedals.rollDamper s.pedals.consoleDamper
            mergedSoft := mergePosition t.console.mode s.pedals.rollSoft (if s.pedals.consoleSoft then 127 else 0) } ∧
          t.shaping = s.shapingFor t.pedals.mergedDamper t.pedals.mergedSoft) ∧
        { t with
          linkT := s.linkT, linkC := s.linkC, linkS := s.linkS, console := s.console, pedals := s.pedals
          shaping := s.shaping } = s)

/-- SET_CONSOLE_PEDALS refuses a soft or sostenuto setting that is neither 0 nor 1 with RANGE; else it stores the three values,
forms both merged positions again, and a changed sostenuto setting acts on the actuator (R154, R155, R156, R160). -/
def Obligations.ConsolePedalsMergeAndActuate : Prop :=
  ∀ (h : Head) (damper soft sostenuto : BitVec 8) (s : State), s.takes h [.C] 3 →
    (1 < soft.toNat ∨ 1 < sostenuto.toNat →
      OnlyAnswers (.setConsolePedals h damper soft sostenuto) h (refusal h .range) s) ∧
    (soft.toNat ≤ 1 → sostenuto.toNat ≤ 1 →
      ∃ t, exec (.setConsolePedals h damper soft sostenuto) s = .next t ∧ Answers s t h (okReply h) 0#8 ∧
        t.pedals.consoleDamper = min 127 damper.toNat ∧ t.pedals.consoleSoft = decide (soft.toNat = 1) ∧
        t.pedals.consoleSostenuto = decide (sostenuto.toNat = 1) ∧
        t.pedals.rollDamper = s.pedals.rollDamper ∧ t.pedals.rollSoft = s.pedals.rollSoft ∧
        t.pedals.mergedDamper = mergePosition s.console.mode s.pedals.rollDamper t.pedals.consoleDamper ∧
        t.pedals.mergedSoft =
          mergePosition s.console.mode s.pedals.rollSoft (if t.pedals.consoleSoft then 127 else 0) ∧
        t.shaping = s.shapingFor t.pedals.mergedDamper t.pedals.mergedSoft ∧
        t.pedals.sostenuto =
          (if t.pedals.consoleSostenuto = s.pedals.consoleSostenuto then s.pedals.sostenuto
          else if sostenuto.toNat = 0 then .off
          else if s.drive.actEn then .pullIn (s.clock + 60000#32) else s.pedals.sostenuto) ∧
        { t with
          linkT := s.linkT, linkC := s.linkC, linkS := s.linkS, pedals := s.pedals, shaping := s.shaping } = s)

/-! ## S-link requests and the two resets (chapters 5, 7, 8, 9, 10 and 11) -/

/-- WRITE_KEY_CAL replaces the whole record of its key by the clamped fields and touches no other, or is refused with RANGE;
READ_KEY_CAL reports the stored record and changes nothing, or is refused with RANGE. Every flight point up to 65535 is reported
as stored; that a point above it, which only a default record holds, is stored so and reported as two bytes the manual does not
state is the model's choice (log entry 9) (R116, R117). -/
def Obligations.KeyCalibrationWrittenAndReadBack : Prop :=
  ∀ (h : Head) (key : BitVec 8) (f : KeyCalFields) (s : State),
    (s.takes h [.S] 44 → 88 ≤ key.toNat → OnlyAnswers (.writeKeyCal h key f) h (refusal h .range) s) ∧
    (∀ k : Key, s.takes h [.S] 44 → key.toNat = k.val →
      ∃ t, exec (.writeKeyCal h key f) s = .next t ∧ Answers s t h (okReply h) 0#8 ∧
        t.keyCal k =
          { touchFloor := min 127 f.touchFloor.toNat
            width := Vector.ofFn fun j => (f.width[j]).toNat
            flight := Vector.ofFn fun j => (f.flight[j]).toNat
            holdDuty := min 1000 f.holdDuty.toNat
            settle := max 5000 (min 100000 f.settle.toNat) } ∧
        (∀ j, j ≠ k → t.keyCal j = s.keyCal j) ∧
        { t with
          linkT := s.linkT, linkC := s.linkC, linkS := s.linkS
          calibration := { t.calibration with keys := s.calibration.keys } } = s) ∧
    (s.takes h [.S] 1 → 88 ≤ key.toNat → OnlyAnswers (.readKeyCal h key) h (refusal h .range) s) ∧
    (∀ k : Key, s.takes h [.S] 1 → key.toNat = k.val →
      ∃ points : Vector (BitVec 16) 9,
        (∀ j : Fin 9, (s.keyCal k).flight[j] < 65536 → points[j] = BitVec.ofNat 16 (s.keyCal k).flight[j]) ∧
        OnlyAnswers (.readKeyCal h key) h
          ⟨.ok, h.tag,
            [key, BitVec.ofNat 8 (s.keyCal k).touchFloor] ++ (s.keyCal k).width.toList.flatMap (leBytes 2) ++
              points.toList.flatMap (fun p => leBytes 2 p.toNat) ++ leBytes 2 (s.keyCal k).holdDuty ++
              leBytes 4 (s.keyCal k).settle⟩ s)

/-- WRITE_STEP_TABLE replaces the table by the clamped levels and forms the targets of CH0 and CH1 again; WRITE_CHANNEL
replaces a channel's rates by the clamped ones, or is refused with RANGE. No level moves (R78, R83). -/
def Obligations.StepTableAndChannelRatesAreStored : Prop :=
  ∀ (h : Head) (levels : Vector (BitVec 16) 8) (channel : BitVec 8) (rateA rateB : BitVec 16) (a b : Nat) (s : State),
    a = max 1 (min 256 rateA.toNat) → b = max 1 (min 256 rateB.toNat) →
    (s.takes h [.S] 16 →
      ∃ t, exec (.writeStepTable h levels) s = .next t ∧ Answers s t h (okReply h) 0#8 ∧
        (∀ j : Fin 8, t.shaping.stepTable[j] = min 1023 (levels[j]).toNat) ∧
        t.shaping = { s.shaping with
          stepTable := t.shaping.stepTable
          ch0 := { s.shaping.ch0 with target := t.shaping.stepTable[s.shaping.bassCode] * 64 }
          ch1 := { s.shaping.ch1 with target := t.shaping.stepTable[s.shaping.trebleCode] * 64 } } ∧
        { t with linkT := s.linkT, linkC := s.linkC, linkS := s.linkS, shaping := s.shaping } = s) ∧
    (s.takes h [.S] 5 → 4 ≤ channel.toNat → OnlyAnswers (.writeChannel h channel rateA rateB) h (refusal h .range) s) ∧
    (s.takes h [.S] 5 → channel.toNat < 4 →
      ∃ t, exec (.writeChannel h channel rateA rateB) s = .next t ∧ Answers s t h (okReply h) 0#8 ∧
        t.shaping =
          (match channel.toNat with
          | 0 => { s.shaping with ch0 := { s.shaping.ch0 with rateA := a, rateB := b } }
          | 1 => { s.shaping with ch1 := { s.shaping.ch1 with rateA := a, rateB := b } }
          | 2 => { s.shaping with ch2 := { s.shaping.ch2 with rateA := a, rateB := b } }
          | _ => { s.shaping with ch3 := { s.shaping.ch3 with rateA := a, rateB := b } }) ∧
        { t with linkT := s.linkT, linkC := s.linkC, linkS := s.linkS, shaping := s.shaping } = s)

/-- WRITE_PEDAL_CURVE replaces the damper or the soft curve by the clamped values, and with selector SOSTENUTO stores the first
value as the hold duty; another selector is refused with RANGE (R158). -/
def Obligations.PedalCurvesAreStoredClamped : Prop :=
  ∀ (h : Head) (selector : BitVec 8) (values : Vector (BitVec 16) 5) (curve : Vector Nat 5) (s : State),
    s.takes h [.S] 11 → (∀ j : Fin 5, curve[j] = min 1000 (values[j]).toNat) →
    (selector = 0#8 →
      ∃ t, exec (.writePedalCurve h selector values) s = .next t ∧ Answers s t h (okReply h) 0#8 ∧
        { t with linkT := s.linkT, linkC := s.linkC, linkS := s.linkS } =
          { s with calibration := { s.calibration with damperCurve := curve } }) ∧
    (selector = 1#8 →
      ∃ t, exec (.writePedalCurve h selector values) s = .next t ∧ Answers s t h (okReply h) 0#8 ∧
        { t with linkT := s.linkT, linkC := s.linkC, linkS := s.linkS } =
          { s with calibration := { s.calibration with softCurve := curve } }) ∧
    (3 ≤ selector.toNat → OnlyAnswers (.writePedalCurve h selector values) h (refusal h .range) s) ∧
    (∃ t, exec (.writeSostenutoHoldDuty h values) s = .next t ∧ Answers s t h (okReply h) 0#8 ∧
      { t with linkT := s.linkT, linkC := s.linkC, linkS := s.linkS } =
        { s with calibration := { s.calibration with sostenutoHold := curve[0] } })

/-- SET_TIMING stores the nine clamped values together, and in STARTING, PLAYING and STALLED is refused with BUSY; no deadline
already set moves (R119). -/
def Obligations.TimingIsStoredClampedOrRefused : Prop :=
  ∀ (h : Head) (f : TimingFields) (s : State), s.takes h [.S] 23 →
    (s.session.state ∈ [SessionState.starting, .playing, .stalled] → OnlyAnswers (.setTiming h f) h (refusal h .busy) s) ∧
    (s.session.state ∈ [SessionState.noRoll, .loaded, .paused, .returning] →
      ∃ t, exec (.setTiming h f) s = .next t ∧ Answers s t h (okReply h) 0#8 ∧
        t.timing =
          { lookAhead := max 20000 (min 500000 f.lookAhead.toNat)
            releaseLead := min 500000 f.releaseLead.toNat
            pedalLead := min 500000 f.pedalLead.toNat
            split := max 1 (min 87 f.split.toNat)
            accentBoost := f.accentBoost.toNat
            repeatGap := max 1000 (min 50000 f.repeatGap.toNat)
            stallTimeout := max 20000 (min 500000 f.stallTimeout.toNat)
            speedTolerance := max 5 (min 100 f.speedTolerance.toNat)
            expressionTick := max 1000 (min 20000 f.expressionTick.toNat) } ∧
        { t with linkT := s.linkT, linkC := s.linkC, linkS := s.linkS, timing := s.timing } = s)

/-- DRIVE with value enable is refused with DRIVE_OFF while the fault input is active; else it is answered OK, and with ACT_EN
deasserted it clears the latch, asserts ACT_EN and pulls in a sostenuto held on. Another value is refused with RANGE. The fault
input going inactive changes nothing else (R162, R167, R168, R170). -/
def Obligations.DriveIsEnabledWithoutAFault : Prop :=
  ∀ (h : Head) (value : BitVec 8) (s : State),
    (s.takes h [.S] 1 → 2 ≤ value.toNat → OnlyAnswers (.driveEnable h value) h (refusal h .range) s) ∧
    (s.takes h [.S] 1 → value = 1#8 → s.drive.faultInput = true →
      OnlyAnswers (.driveEnable h value) h (refusal h .driveOff) s) ∧
    (s.takes h [.S] 1 → value = 1#8 → s.drive.faultInput = false → s.drive.actEn = true →
      OnlyAnswers (.driveEnable h value) h (okReply h) s) ∧
    (s.takes h [.S] 1 → value = 1#8 → s.drive.faultInput = false → s.drive.actEn = false →
      ∃ t, exec (.driveEnable h value) s = .next t ∧ Answers s t h (okReply h) 0#8 ∧
        t.drive = { s.drive with actEn := true, faultLatch := false } ∧
        t.pedals = (if s.pedals.consoleSostenuto then { s.pedals with sostenuto := .pullIn (s.clock + 60000#32) }
          else s.pedals) ∧
        { t with linkT := s.linkT, linkC := s.linkC, linkS := s.linkS, drive := s.drive, pedals := s.pedals } = s) ∧
    exec .faultInputRelease s = .next { s with drive := { s.drive with faultInput := false } }

/-- DRIVE with value disable, and a fault edge, are drive losses: ACT_EN is deasserted, the queue is emptied with its strikes
counted as cancelled, every key in STRIKE or HOLD goes to RELEASING and the sostenuto to OFF. STARTING, PLAYING and STALLED go
to PAUSED with the cause of the loss, in silence; in other states owners and session stand. A fault edge also sets the latch and
raises FAULT (R68, R148, R162, R167, R168, R169). -/
def Obligations.DriveLossEmptiesAndPauses : Prop :=
  ∀ (h : Head) (s : State),
    (s.takes h [.S] 1 →
      ∃ t, exec (.driveDisable h) s = .next t ∧ t.drive = { s.drive with actEn := false } ∧ LosesDrive s t .driveOff ∧
        Answers s t h (okReply h)
          (if s.session.state ∈ [SessionState.starting, .playing, .stalled] then 0x01#8 else 0#8)) ∧
    (s.drive.faultInput = false →
      ∃ t, exec .faultEdge s = .next t ∧
        t.drive = { s.drive with actEn := false, faultLatch := true, faultInput := true } ∧ LosesDrive s t .fault ∧
        Raises s t (if s.session.state ∈ [SessionState.starting, .playing, .stalled] then 0x81#8 else 0x80#8))

/-- TEST_STRIKE is refused BUSY outside NO_ROLL and LOADED, then DRIVE_OFF without ACT_EN, then RANGE for a key of 88 or above.
Else a TAKEOVER release for a former owner is inserted and performed at once, the key becomes TEST's, and a strike due now and its
release after width and hold time are inserted, each by the rules of a full queue if it is one. That the strike still waits in
the queue at the end of the request, to start by a step of its own at the same moment (log entry 11), and that the owner of a
dropped strike is judged with the new entry in the queue (log entry 13), are the model's readings (R75, R126, R130 to R132, R135,
R145). -/
def Obligations.TestStrikeQueuesStrikeAndRelease : Prop :=
  ∀ (h : Head) (key intensity : BitVec 8) (holdMs : BitVec 16) (s : State), s.takes h [.S] 4 →
    (s.session.state ∉ [SessionState.noRoll, .loaded] →
      OnlyAnswers (.testStrike h key intensity holdMs) h (refusal h .busy) s) ∧
    (s.session.state ∈ [SessionState.noRoll, .loaded] → s.drive.actEn = false →
      OnlyAnswers (.testStrike h key intensity holdMs) h (refusal h .driveOff) s) ∧
    (s.session.state ∈ [SessionState.noRoll, .loaded] → s.drive.actEn = true → 88 ≤ key.toNat →
      OnlyAnswers (.testStrike h key intensity holdMs) h (refusal h .range) s) ∧
    (∀ k : Key, s.session.state ∈ [SessionState.noRoll, .loaded] → s.drive.actEn = true → key.toNat = k.val →
      ∃ (t u v w : State) (st : Strike), exec (.testStrike h key intensity holdMs) s = .next t ∧
        st.key = k ∧ st.owner = .test ∧ st.intensity = min 127 intensity.toNat ∧
        StrikeFigures s k st.intensity st.width st.flight ∧ st.sound = s.clock + BitVec.ofNat 32 st.flight ∧
        st.releaseAfter = false ∧
        ((s.key k).owner = none → u = s) ∧
        (∀ m, (s.key k).owner = some m → TakesOverAtOnce s u k m) ∧
        InsertsStrike (u.setKey k { u.key k with owner := some .test }) v s.clock st ∧
        InsertsOther v w (s.clock + BitVec.ofNat 32 (st.width + 1000 * min 2000 holdMs.toNat)) (.release k .test) ∧
        Answers w t h (okReply h) 0#8 ∧ { t with linkT := w.linkT, linkC := w.linkC, linkS := w.linkS } = w)

/-- READ_KEY_STATE reports a key's phase, owner, heat, condition and counts, or is refused with RANGE, and READ_COUNTERS the
thirteen counters, in every session state; reading changes nothing (R150, R175, R184). -/
def Obligations.KeyStateAndCountersAreReported : Prop :=
  ∀ (h : Head) (key : BitVec 8) (s : State),
    (s.takes h [.S] 1 → 88 ≤ key.toNat → OnlyAnswers (.readKeyState h key) h (refusal h .range) s) ∧
    (∀ k : Key, s.takes h [.S] 1 → key.toNat = k.val →
      OnlyAnswers (.readKeyState h key) h
        ⟨.ok, h.tag,
          [key, (s.key k).phase.code, ownerCode (s.key k).owner] ++ leBytes 2 (s.key k).heat ++ [(s.key k).thermal.code] ++
            leBytes 2 (s.key k).strikeCount.toNat ++ leBytes 2 (s.key k).lateCount.toNat⟩ s) ∧
    (s.takes h [.S] 0 →
      OnlyAnswers (.readCounters h) h
        ⟨.ok, h.tag,
          leBytes 4 s.intake.accepted.toNat ++ leBytes 4 s.intake.missing.toNat ++ leBytes 4 s.intake.overruns.toNat ++
            leBytes 4 s.intake.outOfOrder.toNat ++ leBytes 4 s.intake.refused.toNat ++ leBytes 4 s.strikes.performed.toNat ++
            leBytes 4 s.strikes.late.toNat ++ leBytes 4 s.strikes.dropped.toNat ++ leBytes 4 s.strikes.cancelled.toNat ++
            leBytes 4 s.speed.outOfBand.toNat ++ leBytes 4 s.linkT.discards.toNat ++ leBytes 4 s.linkC.discards.toNat ++
            leBytes 4 s.linkS.discards.toNat⟩ s)

/-- RESET_CORE keeps the calibration, the step table, the rates, the timing settings, the score clock, the frame timer and the
transactions of the other links; every other block takes its reset value, ACT_EN is deasserted, an active fault input is
latched at once, and the reply is OK. That the last ratio is 0 after it, also from STARTING and PLAYING, is the model's choice
(log entry 21), and the commands that wait in the queue of commands go on waiting by the model's form (log entry 1) (R93, R118,
R164, R168, R190). -/
def Obligations.CoreResetKeepsCalibrationAndClock : Prop :=
  ∀ (h : Head) (s : State), s.takes h [.S] 0 →
    ∃ t, exec (.resetCore h) s = .next t ∧
      (∀ l, t.link l =
        { slot := if l = .S then okReply h else ⟨.ok, 0#8, []⟩
          latch := if s.drive.faultInput then 0x80#8 else 0#8
          mask := 0#8
          discards := 0#32
          transaction := if l = .S then .idle else (s.link l).transaction
          lastOut := (t.link l).lastOut }) ∧
      t.clock = s.clock ∧ t.frameDeadline = s.frameDeadline ∧ t.thermalDeadline = s.clock + 10000#32 ∧
      t.expressionDeadline = s.clock + BitVec.ofNat 32 s.timing.expressionTick ∧
      t.calibration = s.calibration ∧ t.timing = s.timing ∧ t.pending = s.pending ∧
      t.drive = { s.drive with actEn := false, faultLatch := s.drive.faultInput } ∧
      t.shaping =
        { ch0 := { s.shaping.ch0 with level := 0, target := 0 }
          ch1 := { s.shaping.ch1 with level := 0, target := 0 }
          ch2 := { s.shaping.ch2 with level := 0, target := 0 }
          ch3 := { s.shaping.ch3 with level := 0, target := 0 }
          bassCode := 0
          trebleCode := 0
          stepTable := s.shaping.stepTable } ∧
      BlocksAtReset t

/-- PIN_RESET puts every block in its reset state: the calibration, tables, rates and timing settings at their defaults, the
timers started at 0, the links empty, and an active fault input latched at once. That a select asserted before the reset is
still asserted at its release, and so is ignored, and that the commands that wait go on waiting, is the model's reading of the
event as the whole low pulse (log entry 5) (R118, R168, R181, R189). -/
def Obligations.PinResetRestoresTheDefaults : Prop :=
  ∀ s : State,
    ∃ t, exec .pinReset s = .next t ∧
      (∀ l, t.link l =
        { slot := ⟨.ok, 0#8, []⟩
          latch := if s.drive.faultInput then 0x80#8 else 0#8
          mask := 0#8
          discards := 0#32
          transaction := if (s.link l).transaction = .idle then .idle else .ignored
          lastOut := (t.link l).lastOut }) ∧
      t.clock = 0#32 ∧ t.frameDeadline = 50#32 ∧ t.thermalDeadline = 10000#32 ∧ t.expressionDeadline = 5000#32 ∧
      t.pending = s.pending ∧
      t.drive = ⟨Vector.replicate 91 0, false, s.drive.faultInput, s.drive.faultInput⟩ ∧
      t.timing = ⟨150000, 15000, 60000, 44, 96, 4000, 100000, 15, 5000⟩ ∧
      (∀ k, t.keyCal k =
        { touchFloor := 8
          width := #v[1200, 2000, 3000, 4200, 5600, 7200, 9000, 11000, 13200]
          flight := #v[118000, 96000, 80000, 68000, 59000, 52000, 47000, 43500, 41000]
          holdDuty := 300
          settle := 35000 }) ∧
      t.calibration.damperCurve = #v[0, 380, 560, 720, 900] ∧ t.calibration.softCurve = #v[0, 500, 650, 650, 650] ∧
      t.calibration.sostenutoHold = 350 ∧
      t.shaping =
        { ch0 := ⟨0, 0, 40, 2⟩, ch1 := ⟨0, 0, 40, 2⟩, ch2 := ⟨0, 0, 64, 24⟩, ch3 := ⟨0, 0, 32, 32⟩
          bassCode := 0
          trebleCode := 0
          stepTable := #v[40, 150, 260, 370, 490, 620, 780, 960] } ∧
      BlocksAtReset t

/-! ## The part's own events (chapters 3, 5, 8, 9 and 10) -/

/-- The stall timer's expiry in PLAYING enters STALLED with NO_LINES, the startup timer's in STARTING enters PAUSED with last
cause START_FAILED, each in silence; a stopped timer cannot expire (R41, R51, R52, R63, R65, R74). -/
def Obligations.TimerExpiriesReportToTheSession : Prop :=
  ∀ (d : Time) (s : State), (s.clock - d).toNat < 2147483648 →
    (s.stallTimer = some d → s.session.state = .playing →
      ∃ t, exec .stallTimerExpiry s = .next t ∧ Raises s t 0x01#8 ∧ Silences s t ∧ StopsRunning s t ∧
        t.session = { s.session with state := .stalled, causes := ⟨true, false, false⟩ } ∧
        { t with
          linkT := s.linkT, linkC := s.linkC, linkS := s.linkS, session := s.session, queue := s.queue, strikes := s.strikes
          slots := s.slots, keys := s.keys, struckKeys := s.struckKeys, pedals := s.pedals, shaping := s.shaping
          speed := s.speed, startupTimer := s.startupTimer, stallTimer := s.stallTimer } = s) ∧
    (s.startupTimer = some d → s.session.state = .starting →
      ∃ t, exec .startupTimerExpiry s = .next t ∧ Raises s t 0x01#8 ∧ Silences s t ∧ StopsRunning s t ∧
        t.session = s.session.movedTo .paused (some .startFailed) ∧
        { t with
          linkT := s.linkT, linkC := s.linkC, linkS := s.linkS, session := s.session, queue := s.queue, strikes := s.strikes
          slots := s.slots, keys := s.keys, struckKeys := s.struckKeys, pedals := s.pedals, shaping := s.shaping
          speed := s.speed, startupTimer := s.startupTimer, stallTimer := s.stallTimer } = s) ∧
    (s.stallTimer = none → exec .stallTimerExpiry s = .next s) ∧
    (s.startupTimer = none → exec .startupTimerExpiry s = .next s)

/-- At an expression tick CH2 and CH3 take one step, and CH0 and CH1 take one only in PLAYING: toward the target by the rate's
share of the distance, at least 1, and never past it. The rates follow the glide tracks and the pedals' direction, and the next
tick falls one period after this one (R81, R82, R84, R85, R86). -/
def Obligations.ChannelsApproachTheirTargets : Prop :=
  ∀ s : State, (s.clock - s.expressionDeadline).toNat < 2147483648 →
    ∃ t, exec .expressionTick s = .next t ∧
      t.shaping = { s.shaping with
        ch0 := if s.session.state = .playing then
            s.shaping.ch0.approached (if s.detectors[(3 : Track)].isOpen then s.shaping.ch0.rateB else s.shaping.ch0.rateA)
          else s.shaping.ch0
        ch1 := if s.session.state = .playing then
            s.shaping.ch1.approached (if s.detectors[(98 : Track)].isOpen then s.shaping.ch1.rateB else s.shaping.ch1.rateA)
          else s.shaping.ch1
        ch2 := s.shaping.ch2.approached
          (if s.shaping.ch2.level < s.shaping.ch2.target then s.shaping.ch2.rateA else s.shaping.ch2.rateB)
        ch3 := s.shaping.ch3.approached
          (if s.shaping.ch3.level < s.shaping.ch3.target then s.shaping.ch3.rateA else s.shaping.ch3.rateB) } ∧
      (∀ ch ∈ [Shaping.ch0, Shaping.ch1, Shaping.ch2, Shaping.ch3],
        (ch s.shaping).rateA ≤ 256 → (ch s.shaping).rateB ≤ 256 →
        min (ch s.shaping).level (ch s.shaping).target ≤ (ch t.shaping).level ∧
        (ch t.shaping).level ≤ max (ch s.shaping).level (ch s.shaping).target) ∧
      t.expressionDeadline = s.expressionDeadline + BitVec.ofNat 32 s.timing.expressionTick ∧
      { t with shaping := s.shaping, expressionDeadline := s.expressionDeadline } = s

/-- At a thermal tick every key cools by floor(3 H / 256), at least 1 while warm at all, and a key in HOLD gains half its applied
hold duty; the condition moves by R173, and HEAT is raised exactly when some condition changes (R172, R173, R174). -/
def Obligations.ThermalTickCoolsEveryKey : Prop :=
  ∀ s : State, (s.clock - s.thermalDeadline).toNat < 2147483648 →
    ∃ t, exec .thermalTick s = .next t ∧
      (∀ k, ∃ cooled held applied : Nat,
        applied = (if (s.key k).thermal = .cool then (s.keyCal k).holdDuty else (s.keyCal k).holdDuty / 2) ∧
        cooled = (if (s.key k).heat = 0 then 0 else max 1 ((s.key k).heat * 3 / 256)) ∧
        held = (if (s.key k).phase = .hold then applied / 2 else 0) ∧
        t.key k = { s.key k with
          heat := min 65535 ((s.key k).heat - cooled + held), thermal := (t.key k).thermal } ∧
        ThermalMoves (s.key k).thermal (t.key k).heat (t.key k).thermal) ∧
      ((∃ k, (t.key k).thermal ≠ (s.key k).thermal) → Raises s t 0x40#8) ∧
      ((∀ k, (t.key k).thermal = (s.key k).thermal) → Raises s t 0#8) ∧
      t.thermalDeadline = s.thermalDeadline + 10000#32 ∧
      { t with
        linkT := s.linkT, linkC := s.linkC, linkS := s.linkS, keys := s.keys, thermalDeadline := s.thermalDeadline } = s

/-- At a frame boundary every output takes its owner's duty, and every one 0 while ACT_EN is deasserted; the next boundary
falls 50 µs after this one (R157, R159, R165, R166, R174). -/
def Obligations.FrameBoundaryTakesTheDuties : Prop :=
  ∀ s : State, (s.clock - s.frameDeadline).toNat < 2147483648 →
    ∃ t, exec .pwmFrameBoundary s = .next t ∧
      (s.drive.actEn = false → ∀ i : Fin 91, t.drive.duties[i] = 0) ∧
      (s.drive.actEn = true →
        (∀ k : Key, t.drive.duties[k.val]'(by omega) =
          (match (s.key k).phase with
          | .idle _ | .releasing _ => 0
          | .strike _ _ _ => 1000
          | .hold => if (s.key k).thermal = .cool then (s.keyCal k).holdDuty else (s.keyCal k).holdDuty / 2)) ∧
        CurveDuty s.calibration.damperCurve (s.shaping.ch2.level / 64) t.drive.duties[88] ∧
        CurveDuty s.calibration.softCurve (s.shaping.ch3.level / 64) t.drive.duties[89] ∧
        t.drive.duties[90] =
          (match s.pedals.sostenuto with
          | .off => 0
          | .pullIn _ => 1000
          | .hold => s.calibration.sostenutoHold)) ∧
      t.frameDeadline = s.frameDeadline + 50#32 ∧
      { t with drive := { t.drive with duties := s.drive.duties }, frameDeadline := s.frameDeadline } = s

/-- A RELEASE entry of a note track or TEST that is the next to perform leaves the queue. On a key of another owner it does
nothing; with strikes of its owner inserted before it still queued it marks the earliest-inserted one; else it acts on the key's
phase and clears the owner, unless a strike of that owner stands (R104, R133, R134). -/
def Obligations.ReleaseActsForItsOwnerOnly : Prop :=
  ∀ (s : State) (pre post : List Entry) (e : Entry) (k : Key) (m : Owner),
    s.performsNext pre e post → e.action = .release k m →
    ((s.key k).owner ≠ some m → exec .releaseEntryPerform s = .next { s with queue := pre ++ post }) ∧
    (∀ first ∈ pre ++ post, (s.key k).owner = some m → first.isStrikeOf k m = true → insertedBefore first.seq e.seq = true →
      (∀ x ∈ pre ++ post, x.isStrikeOf k m = true → insertedBefore x.seq e.seq = true → x ≠ first →
        insertedBefore first.seq x.seq = true) →
      exec .releaseEntryPerform s =
        .next { s with queue := (pre ++ post).map fun x => if x = first then x.marked else x }) ∧
    ((s.key k).owner = some m → (∀ x ∈ pre ++ post, x.isStrikeOf k m = true → insertedBefore x.seq e.seq = false) →
      ∃ t, exec .releaseEntryPerform s = .next t ∧ t.queue = pre ++ post ∧
        t.key k = { s.key k with
          phase := s.releasedPhase k
          owner := if (pre ++ post).any (fun x => x.isStrikeOf k m) then some m else none } ∧
        (∀ j, j ≠ k → t.key j = s.key j) ∧
        { t with queue := s.queue, keys := s.keys } = s)

/-- A TAKEOVER release that is the next to perform leaves the queue, marks the displaced owner's earlier strikes for its key,
removes that owner's earlier releases for it, and acts on the key's phase; the owner stays (R104, R133, R135). -/
def Obligations.TakeoverEndsTheDisplacedNote : Prop :=
  ∀ (s : State) (pre post : List Entry) (e : Entry) (k : Key) (m : Owner),
    s.performsNext pre e post → e.action = .takeover k m →
    ∃ t, exec .takeoverReleasePerform s = .next t ∧
      t.queue =
        ((pre ++ post).filter fun x => !(x.action == .release k m && insertedBefore x.seq e.seq)).map
          (fun x => if x.isStrikeOf k m && insertedBefore x.seq e.seq then x.marked else x) ∧
      t.key k = { s.key k with phase := s.releasedPhase k } ∧ (∀ j, j ≠ k → t.key j = s.key j) ∧
      { t with queue := s.queue, keys := s.keys } = s

/-- A PEDAL entry that is the next to perform sets its pedal's roll request, and a changed one forms that pedal's merge again;
an END entry in PLAYING enters RETURNING with last cause END_MARK, in silence (R70, R133, R136, R152, R156). -/
def Obligations.PedalAndEndEntriesArePerformed : Prop :=
  ∀ (s : State) (pre post : List Entry) (e : Entry), s.performsNext pre e post →
    (∀ v merged, e.action = .pedal .damper v →
      merged = (if v = s.pedals.rollDamper then s.pedals.mergedDamper
        else mergePosition s.console.mode v s.pedals.consoleDamper) →
      exec .pedalEntryPerform s = .next { s with
        queue := pre ++ post
        pedals := { s.pedals with rollDamper := v, mergedDamper := merged }
        shaping := s.shapingFor merged s.pedals.mergedSoft }) ∧
    (∀ v merged, e.action = .pedal .soft v →
      merged = (if v = s.pedals.rollSoft then s.pedals.mergedSoft
        else mergePosition s.console.mode v (if s.pedals.consoleSoft then 127 else 0)) →
      exec .pedalEntryPerform s = .next { s with
        queue := pre ++ post
        pedals := { s.pedals with rollSoft := v, mergedSoft := merged }
        shaping := s.shapingFor s.pedals.mergedDamper merged }) ∧
    (e.action = .endMark → s.session.state = .playing →
      ∃ t, exec .endEntryPerform s = .next t ∧ Raises s t 0x01#8 ∧ Silences s t ∧ StopsRunning s t ∧
        t.session = s.session.movedTo .returning (some .endMark) ∧
        t.intake = { s.intake with state := .off, queue := [], decode := none } ∧
        { t with
          linkT := s.linkT, linkC := s.linkC, linkS := s.linkS, session := s.session, queue := s.queue, strikes := s.strikes
          slots := s.slots, keys := s.keys, struckKeys := s.struckKeys, pedals := s.pedals, shaping := s.shaping
          speed := s.speed, startupTimer := s.startupTimer, stallTimer := s.stallTimer, intake := s.intake } = s)

/-- While a slot is free the arbiter starts the ready STRIKE entry that stands earliest: slot, phase, heat and counts are as
R141 says, a start more than 10,000 µs after its intended fire time counts as late and raises LATE, and a changed condition
raises HEAT. With no free slot, or no ready entry, nothing starts (R137, R138, R141, R142, R149, R171, R173). -/
def Obligations.ArbiterStartsTheFirstReadyStrike : Prop :=
  ∀ s : State,
    (∀ (pre post : List Entry) (e : Entry) (st : Strike),
      s.slots.length < 12 → s.queue = pre ++ e :: post → e.action = .strike st → s.readyAfter pre e →
      (∀ a x b, pre = a ++ x :: b → ¬ s.readyAfter a x) →
      ∃ (t : State) (late : Bool), exec .strikeStart s = .next t ∧
        (late = true ↔ 10000 < (s.clock - (st.sound - BitVec.ofNat 32 st.flight)).toNat) ∧
        t.queue = pre ++ post ∧ t.slots = s.slots ++ [st.key] ∧
        t.strikes = { s.strikes with
          performed := bump s.strikes.performed 1, late := if late then bump s.strikes.late 1 else s.strikes.late } ∧
        t.key st.key = { s.key st.key with
          phase := .strike (s.clock + BitVec.ofNat 32 st.width) st.releaseAfter st.owner
          heat := min 65535 ((s.key st.key).heat + st.width / 16)
          thermal := (t.key st.key).thermal
          strikeCount := BitVec.ofNat 16 (min ((s.key st.key).strikeCount.toNat + 1) 65535)
          lateCount := if late then BitVec.ofNat 16 (min ((s.key st.key).lateCount.toNat + 1) 65535)
            else (s.key st.key).lateCount } ∧
        ThermalMoves (s.key st.key).thermal (t.key st.key).heat (t.key st.key).thermal ∧
        (∀ j, j ≠ st.key → t.key j = s.key j) ∧
        Raises s t ((if late then 0x10#8 else 0#8) |||
          (if (t.key st.key).thermal = (s.key st.key).thermal then 0#8 else 0x40#8)) ∧
        { t with
          linkT := s.linkT, linkC := s.linkC, linkS := s.linkS, queue := s.queue, slots := s.slots, strikes := s.strikes
          keys := s.keys } = s) ∧
    ((12 ≤ s.slots.length ∨ ∀ a x b, s.queue = a ++ x :: b → ¬ s.readyAfter a x) → exec .strikeStart s = .next s)

/-- A STRIKE phase ends at its end time in HOLD, or marked release-after in RELEASING for the key's settle with its owner
cleared if no strike of it waits; its slot is freed. RELEASING ends IDLE since its end time and not rested, IDLE is rested after
the repeat gap, and a sostenuto pull-in ends in HOLD (R104, R143, R144, R161). -/
def Obligations.KeyPhasesAndPullInEnd : Prop :=
  ∀ (k : Key) (e : Time) (s : State), (s.clock - e).toNat < 2147483648 →
    (∀ o, (s.key k).phase = .strike e false o →
      exec (.strikeEnd k) s =
        .next (({ s with slots := s.slots.erase k } : State).setKey k { s.key k with phase := .hold })) ∧
    (∀ o, (s.key k).phase = .strike e true o →
      exec (.strikeEnd k) s =
        .next (({ s with slots := s.slots.erase k } : State).setKey k { s.key k with
          phase := .releasing (s.clock + BitVec.ofNat 32 (s.keyCal k).settle)
          owner := if (s.key k).owner = some o ∧ s.queue.any (fun x => x.isStrikeOf k o) = false then none
            else (s.key k).owner })) ∧
    ((s.key k).phase = .releasing e →
      exec (.settleEnd k) s = .next (s.setKey k { s.key k with phase := .idle false, idleSince := e })) ∧
    (∀ rested, (s.key k).phase = .idle rested → s.timing.repeatGap ≤ (s.clock - (s.key k).idleSince).toNat →
      exec (.keyRested k) s = .next (s.setKey k { s.key k with phase := .idle true })) ∧
    (s.pedals.sostenuto = .pullIn e →
      exec .pullInEnd s = .next { s with pedals := { s.pedals with sostenuto := .hold } })

/-! ## Invariants that every step keeps -/

/-- The invariant holds of the state after reset. -/
def Obligations.ResetStateMeetsTheInvariant : Prop := Invariant State.reset

/-- Every step keeps settings, figures, merged positions and duties within their ranges (R85, R115, R119, R155, R157). -/
def Obligations.StepKeepsTheRanges : Prop := ∀ s t : State, Invariant s → step s = .next t → Ranges t

/-- Every step keeps at most twelve keys in STRIKE, each with its slot, and heat in agreement with condition (R138, R172,
R173). -/
def Obligations.StepKeepsSlotsAndHeat : Prop := ∀ s t : State, Invariant s → step s = .next t → KeysFit t

/-- Every step keeps intake, causes, timers and speed monitor with the session state: the intake is OFF exactly in NO_ROLL and
RETURNING, in STARTING and PLAYING it is ACCEPTING and the tracker not LOST, and no decode has run for more than 120 µs (R3, R9,
R12, R49, R51, R52, R55, R59, R63). -/
def Obligations.StepKeepsIntakeAndSession : Prop :=
  ∀ s t : State, Invariant s → step s = .next t → IntakeFits t ∧ SessionFits t

/-- Every step keeps struck keys, roll requests and PEDAL and END entries to PLAYING, and STARTING, PAUSED, STALLED and RETURNING
silent (R74, R95, R147, R153). -/
def Obligations.StepKeepsTheSilence : Prop := ∀ s t : State, Invariant s → step s = .next t → NotesFit t

/-- Every step keeps ACT_EN asserted in STARTING, PLAYING and STALLED, never with the fault latched, and nothing driven without it
(R58, R162, R167, R168). -/
def Obligations.StepKeepsTheDrive : Prop := ∀ s t : State, Invariant s → step s = .next t → DriveFits t

/-- Every step keeps the queue's capacities and entry ranges, one key to a note track, and TEST to NO_ROLL and LOADED (R104, R124,
R130). -/
def Obligations.StepKeepsEntriesAndOwners : Prop := ∀ s t : State, Invariant s → step s = .next t → EntriesFit t
end

