-- ==== Sys2Proof/Laws/State.lean ====
section
/-! SUPPORT. Frame laws: for each operation over the state, the fields it leaves as they stand. Each is a conjunction, one
equation a field, and a simp lemma, so that no later proof unfolds an update. -/

namespace Sys2Proof.Machine

/-! ## Plain updates -/

@[simp] theorem State.raise_frame (s : State) (e : EventKind) :
    (s.raise e).clock = s.clock ∧ (s.raise e).intake = s.intake ∧ (s.raise e).tracker = s.tracker ∧
    (s.raise e).detectors = s.detectors ∧ (s.raise e).speed = s.speed ∧ (s.raise e).stallTimer = s.stallTimer ∧
    (s.raise e).startupTimer = s.startupTimer ∧ (s.raise e).session = s.session ∧ (s.raise e).shaping = s.shaping ∧
    (s.raise e).expressionDeadline = s.expressionDeadline ∧ (s.raise e).struckKeys = s.struckKeys ∧
    (s.raise e).console = s.console ∧ (s.raise e).calibration = s.calibration ∧ (s.raise e).timing = s.timing ∧
    (s.raise e).queue = s.queue ∧ (s.raise e).nextSeq = s.nextSeq ∧ (s.raise e).slots = s.slots ∧ (s.raise e).keys = s.keys ∧
    (s.raise e).strikes = s.strikes ∧ (s.raise e).pedals = s.pedals ∧ (s.raise e).drive = s.drive ∧
    (s.raise e).frameDeadline = s.frameDeadline ∧ (s.raise e).thermalDeadline = s.thermalDeadline ∧
    (s.raise e).freeCount = s.freeCount ∧ (s.raise e).pending = s.pending := by
  simp [State.raise]

@[simp] theorem State.setKey_frame (s : State) (k : Key) (r : KeyRecord) :
    (s.setKey k r).clock = s.clock ∧ (s.setKey k r).linkT = s.linkT ∧ (s.setKey k r).linkC = s.linkC ∧
    (s.setKey k r).linkS = s.linkS ∧ (s.setKey k r).intake = s.intake ∧ (s.setKey k r).tracker = s.tracker ∧
    (s.setKey k r).detectors = s.detectors ∧ (s.setKey k r).speed = s.speed ∧ (s.setKey k r).stallTimer = s.stallTimer ∧
    (s.setKey k r).startupTimer = s.startupTimer ∧ (s.setKey k r).session = s.session ∧ (s.setKey k r).shaping = s.shaping ∧
    (s.setKey k r).expressionDeadline = s.expressionDeadline ∧ (s.setKey k r).struckKeys = s.struckKeys ∧
    (s.setKey k r).console = s.console ∧ (s.setKey k r).calibration = s.calibration ∧ (s.setKey k r).timing = s.timing ∧
    (s.setKey k r).queue = s.queue ∧ (s.setKey k r).nextSeq = s.nextSeq ∧ (s.setKey k r).slots = s.slots ∧
    (s.setKey k r).strikes = s.strikes ∧ (s.setKey k r).pedals = s.pedals ∧ (s.setKey k r).drive = s.drive ∧
    (s.setKey k r).frameDeadline = s.frameDeadline ∧ (s.setKey k r).thermalDeadline = s.thermalDeadline ∧
    (s.setKey k r).freeCount = s.freeCount ∧ (s.setKey k r).pending = s.pending := by
  simp [State.setKey]

@[simp] theorem State.mapKeys_frame (s : State) (f : Key → KeyRecord → KeyRecord) :
    (s.mapKeys f).clock = s.clock ∧ (s.mapKeys f).linkT = s.linkT ∧ (s.mapKeys f).linkC = s.linkC ∧
    (s.mapKeys f).linkS = s.linkS ∧ (s.mapKeys f).intake = s.intake ∧ (s.mapKeys f).tracker = s.tracker ∧
    (s.mapKeys f).detectors = s.detectors ∧ (s.mapKeys f).speed = s.speed ∧ (s.mapKeys f).stallTimer = s.stallTimer ∧
    (s.mapKeys f).startupTimer = s.startupTimer ∧ (s.mapKeys f).session = s.session ∧ (s.mapKeys f).shaping = s.shaping ∧
    (s.mapKeys f).expressionDeadline = s.expressionDeadline ∧ (s.mapKeys f).struckKeys = s.struckKeys ∧
    (s.mapKeys f).console = s.console ∧ (s.mapKeys f).calibration = s.calibration ∧ (s.mapKeys f).timing = s.timing ∧
    (s.mapKeys f).queue = s.queue ∧ (s.mapKeys f).nextSeq = s.nextSeq ∧ (s.mapKeys f).slots = s.slots ∧
    (s.mapKeys f).strikes = s.strikes ∧ (s.mapKeys f).pedals = s.pedals ∧ (s.mapKeys f).drive = s.drive ∧
    (s.mapKeys f).frameDeadline = s.frameDeadline ∧ (s.mapKeys f).thermalDeadline = s.thermalDeadline ∧
    (s.mapKeys f).freeCount = s.freeCount ∧ (s.mapKeys f).pending = s.pending := by
  simp [State.mapKeys]

@[simp] theorem State.setOwner_frame (s : State) (k : Key) (o : Option Owner) :
    (s.setOwner k o).clock = s.clock ∧ (s.setOwner k o).linkT = s.linkT ∧ (s.setOwner k o).linkC = s.linkC ∧
    (s.setOwner k o).linkS = s.linkS ∧ (s.setOwner k o).intake = s.intake ∧ (s.setOwner k o).tracker = s.tracker ∧
    (s.setOwner k o).detectors = s.detectors ∧ (s.setOwner k o).speed = s.speed ∧
    (s.setOwner k o).stallTimer = s.stallTimer ∧ (s.setOwner k o).startupTimer = s.startupTimer ∧
    (s.setOwner k o).session = s.session ∧ (s.setOwner k o).shaping = s.shaping ∧
    (s.setOwner k o).expressionDeadline = s.expressionDeadline ∧ (s.setOwner k o).struckKeys = s.struckKeys ∧
    (s.setOwner k o).console = s.console ∧ (s.setOwner k o).calibration = s.calibration ∧
    (s.setOwner k o).timing = s.timing ∧ (s.setOwner k o).queue = s.queue ∧ (s.setOwner k o).nextSeq = s.nextSeq ∧
    (s.setOwner k o).slots = s.slots ∧ (s.setOwner k o).strikes = s.strikes ∧ (s.setOwner k o).pedals = s.pedals ∧
    (s.setOwner k o).drive = s.drive ∧ (s.setOwner k o).frameDeadline = s.frameDeadline ∧
    (s.setOwner k o).thermalDeadline = s.thermalDeadline ∧ (s.setOwner k o).freeCount = s.freeCount ∧
    (s.setOwner k o).pending = s.pending := by
  simp [State.setOwner]

@[simp] theorem State.releasePhase_frame (s : State) (k : Key) :
    (s.releasePhase k).clock = s.clock ∧ (s.releasePhase k).linkT = s.linkT ∧ (s.releasePhase k).linkC = s.linkC ∧
    (s.releasePhase k).linkS = s.linkS ∧ (s.releasePhase k).intake = s.intake ∧ (s.releasePhase k).tracker = s.tracker ∧
    (s.releasePhase k).detectors = s.detectors ∧ (s.releasePhase k).speed = s.speed ∧
    (s.releasePhase k).stallTimer = s.stallTimer ∧ (s.releasePhase k).startupTimer = s.startupTimer ∧
    (s.releasePhase k).session = s.session ∧ (s.releasePhase k).shaping = s.shaping ∧
    (s.releasePhase k).expressionDeadline = s.expressionDeadline ∧ (s.releasePhase k).struckKeys = s.struckKeys ∧
    (s.releasePhase k).console = s.console ∧ (s.releasePhase k).calibration = s.calibration ∧
    (s.releasePhase k).timing = s.timing ∧ (s.releasePhase k).queue = s.queue ∧ (s.releasePhase k).nextSeq = s.nextSeq ∧
    (s.releasePhase k).slots = s.slots ∧ (s.releasePhase k).strikes = s.strikes ∧ (s.releasePhase k).pedals = s.pedals ∧
    (s.releasePhase k).drive = s.drive ∧ (s.releasePhase k).frameDeadline = s.frameDeadline ∧
    (s.releasePhase k).thermalDeadline = s.thermalDeadline ∧ (s.releasePhase k).freeCount = s.freeCount ∧
    (s.releasePhase k).pending = s.pending := by
  simp [State.releasePhase]

@[simp] theorem State.clearOwners_frame (s : State) :
    (s.clearOwners).clock = s.clock ∧ (s.clearOwners).linkT = s.linkT ∧ (s.clearOwners).linkC = s.linkC ∧
    (s.clearOwners).linkS = s.linkS ∧ (s.clearOwners).intake = s.intake ∧ (s.clearOwners).tracker = s.tracker ∧
    (s.clearOwners).detectors = s.detectors ∧ (s.clearOwners).speed = s.speed ∧ (s.clearOwners).stallTimer = s.stallTimer ∧
    (s.clearOwners).startupTimer = s.startupTimer ∧ (s.clearOwners).session = s.session ∧
    (s.clearOwners).shaping = s.shaping ∧ (s.clearOwners).expressionDeadline = s.expressionDeadline ∧
    (s.clearOwners).struckKeys = s.struckKeys ∧ (s.clearOwners).console = s.console ∧
    (s.clearOwners).calibration = s.calibration ∧ (s.clearOwners).timing = s.timing ∧ (s.clearOwners).queue = s.queue ∧
    (s.clearOwners).nextSeq = s.nextSeq ∧ (s.clearOwners).slots = s.slots ∧ (s.clearOwners).strikes = s.strikes ∧
    (s.clearOwners).pedals = s.pedals ∧ (s.clearOwners).drive = s.drive ∧ (s.clearOwners).frameDeadline = s.frameDeadline ∧
    (s.clearOwners).thermalDeadline = s.thermalDeadline ∧ (s.clearOwners).freeCount = s.freeCount ∧
    (s.clearOwners).pending = s.pending := by
  simp [State.clearOwners]

@[simp] theorem State.releaseKeys_frame (s : State) :
    (s.releaseKeys).clock = s.clock ∧ (s.releaseKeys).linkT = s.linkT ∧ (s.releaseKeys).linkC = s.linkC ∧
    (s.releaseKeys).linkS = s.linkS ∧ (s.releaseKeys).intake = s.intake ∧ (s.releaseKeys).tracker = s.tracker ∧
    (s.releaseKeys).detectors = s.detectors ∧ (s.releaseKeys).speed = s.speed ∧ (s.releaseKeys).stallTimer = s.stallTimer ∧
    (s.releaseKeys).startupTimer = s.startupTimer ∧ (s.releaseKeys).session = s.session ∧
    (s.releaseKeys).shaping = s.shaping ∧ (s.releaseKeys).expressionDeadline = s.expressionDeadline ∧
    (s.releaseKeys).struckKeys = s.struckKeys ∧ (s.releaseKeys).console = s.console ∧
    (s.releaseKeys).calibration = s.calibration ∧ (s.releaseKeys).timing = s.timing ∧ (s.releaseKeys).queue = s.queue ∧
    (s.releaseKeys).nextSeq = s.nextSeq ∧ (s.releaseKeys).strikes = s.strikes ∧ (s.releaseKeys).pedals = s.pedals ∧
    (s.releaseKeys).drive = s.drive ∧ (s.releaseKeys).frameDeadline = s.frameDeadline ∧
    (s.releaseKeys).thermalDeadline = s.thermalDeadline ∧ (s.releaseKeys).freeCount = s.freeCount ∧
    (s.releaseKeys).pending = s.pending := by
  simp [State.releaseKeys]

@[simp] theorem State.flushQueue_frame (s : State) :
    (s.flushQueue).clock = s.clock ∧ (s.flushQueue).linkT = s.linkT ∧ (s.flushQueue).linkC = s.linkC ∧
    (s.flushQueue).linkS = s.linkS ∧ (s.flushQueue).intake = s.intake ∧ (s.flushQueue).tracker = s.tracker ∧
    (s.flushQueue).detectors = s.detectors ∧ (s.flushQueue).speed = s.speed ∧ (s.flushQueue).stallTimer = s.stallTimer ∧
    (s.flushQueue).startupTimer = s.startupTimer ∧ (s.flushQueue).session = s.session ∧ (s.flushQueue).shaping = s.shaping ∧
    (s.flushQueue).expressionDeadline = s.expressionDeadline ∧ (s.flushQueue).struckKeys = s.struckKeys ∧
    (s.flushQueue).console = s.console ∧ (s.flushQueue).calibration = s.calibration ∧ (s.flushQueue).timing = s.timing ∧
    (s.flushQueue).nextSeq = s.nextSeq ∧ (s.flushQueue).slots = s.slots ∧ (s.flushQueue).keys = s.keys ∧
    (s.flushQueue).pedals = s.pedals ∧ (s.flushQueue).drive = s.drive ∧ (s.flushQueue).frameDeadline = s.frameDeadline ∧
    (s.flushQueue).thermalDeadline = s.thermalDeadline ∧ (s.flushQueue).freeCount = s.freeCount ∧
    (s.flushQueue).pending = s.pending := by
  simp [State.flushQueue]

@[simp] theorem State.setSostenuto_frame (s : State) (p : Sostenuto) :
    (s.setSostenuto p).clock = s.clock ∧ (s.setSostenuto p).linkT = s.linkT ∧ (s.setSostenuto p).linkC = s.linkC ∧
    (s.setSostenuto p).linkS = s.linkS ∧ (s.setSostenuto p).intake = s.intake ∧ (s.setSostenuto p).tracker = s.tracker ∧
    (s.setSostenuto p).detectors = s.detectors ∧ (s.setSostenuto p).speed = s.speed ∧
    (s.setSostenuto p).stallTimer = s.stallTimer ∧ (s.setSostenuto p).startupTimer = s.startupTimer ∧
    (s.setSostenuto p).session = s.session ∧ (s.setSostenuto p).shaping = s.shaping ∧
    (s.setSostenuto p).expressionDeadline = s.expressionDeadline ∧ (s.setSostenuto p).struckKeys = s.struckKeys ∧
    (s.setSostenuto p).console = s.console ∧ (s.setSostenuto p).calibration = s.calibration ∧
    (s.setSostenuto p).timing = s.timing ∧ (s.setSostenuto p).queue = s.queue ∧ (s.setSostenuto p).nextSeq = s.nextSeq ∧
    (s.setSostenuto p).slots = s.slots ∧ (s.setSostenuto p).keys = s.keys ∧ (s.setSostenuto p).strikes = s.strikes ∧
    (s.setSostenuto p).drive = s.drive ∧ (s.setSostenuto p).frameDeadline = s.frameDeadline ∧
    (s.setSostenuto p).thermalDeadline = s.thermalDeadline ∧ (s.setSostenuto p).freeCount = s.freeCount ∧
    (s.setSostenuto p).pending = s.pending := by
  simp [State.setSostenuto]

@[simp] theorem State.startPullIn_frame (s : State) :
    (s.startPullIn).clock = s.clock ∧ (s.startPullIn).linkT = s.linkT ∧ (s.startPullIn).linkC = s.linkC ∧
    (s.startPullIn).linkS = s.linkS ∧ (s.startPullIn).intake = s.intake ∧ (s.startPullIn).tracker = s.tracker ∧
    (s.startPullIn).detectors = s.detectors ∧ (s.startPullIn).speed = s.speed ∧ (s.startPullIn).stallTimer = s.stallTimer ∧
    (s.startPullIn).startupTimer = s.startupTimer ∧ (s.startPullIn).session = s.session ∧
    (s.startPullIn).shaping = s.shaping ∧ (s.startPullIn).expressionDeadline = s.expressionDeadline ∧
    (s.startPullIn).struckKeys = s.struckKeys ∧ (s.startPullIn).console = s.console ∧
    (s.startPullIn).calibration = s.calibration ∧ (s.startPullIn).timing = s.timing ∧ (s.startPullIn).queue = s.queue ∧
    (s.startPullIn).nextSeq = s.nextSeq ∧ (s.startPullIn).slots = s.slots ∧ (s.startPullIn).keys = s.keys ∧
    (s.startPullIn).strikes = s.strikes ∧ (s.startPullIn).drive = s.drive ∧ (s.startPullIn).frameDeadline = s.frameDeadline ∧
    (s.startPullIn).thermalDeadline = s.thermalDeadline ∧ (s.startPullIn).freeCount = s.freeCount ∧
    (s.startPullIn).pending = s.pending := by
  simp [State.startPullIn]

@[simp] theorem State.setLastCause_frame (s : State) (c : Option LastCause) :
    (s.setLastCause c).clock = s.clock ∧ (s.setLastCause c).linkT = s.linkT ∧ (s.setLastCause c).linkC = s.linkC ∧
    (s.setLastCause c).linkS = s.linkS ∧ (s.setLastCause c).intake = s.intake ∧ (s.setLastCause c).tracker = s.tracker ∧
    (s.setLastCause c).detectors = s.detectors ∧ (s.setLastCause c).speed = s.speed ∧
    (s.setLastCause c).stallTimer = s.stallTimer ∧ (s.setLastCause c).startupTimer = s.startupTimer ∧
    (s.setLastCause c).shaping = s.shaping ∧ (s.setLastCause c).expressionDeadline = s.expressionDeadline ∧
    (s.setLastCause c).struckKeys = s.struckKeys ∧ (s.setLastCause c).console = s.console ∧
    (s.setLastCause c).calibration = s.calibration ∧ (s.setLastCause c).timing = s.timing ∧
    (s.setLastCause c).queue = s.queue ∧ (s.setLastCause c).nextSeq = s.nextSeq ∧ (s.setLastCause c).slots = s.slots ∧
    (s.setLastCause c).keys = s.keys ∧ (s.setLastCause c).strikes = s.strikes ∧ (s.setLastCause c).pedals = s.pedals ∧
    (s.setLastCause c).drive = s.drive ∧ (s.setLastCause c).frameDeadline = s.frameDeadline ∧
    (s.setLastCause c).thermalDeadline = s.thermalDeadline ∧ (s.setLastCause c).freeCount = s.freeCount ∧
    (s.setLastCause c).pending = s.pending := by
  simp [State.setLastCause]

@[simp] theorem State.moveSession_frame (s : State) (d : SessionState) :
    (s.moveSession d).clock = s.clock ∧ (s.moveSession d).intake = s.intake ∧ (s.moveSession d).tracker = s.tracker ∧
    (s.moveSession d).detectors = s.detectors ∧ (s.moveSession d).shaping = s.shaping ∧
    (s.moveSession d).expressionDeadline = s.expressionDeadline ∧ (s.moveSession d).struckKeys = s.struckKeys ∧
    (s.moveSession d).console = s.console ∧ (s.moveSession d).calibration = s.calibration ∧
    (s.moveSession d).timing = s.timing ∧ (s.moveSession d).queue = s.queue ∧ (s.moveSession d).nextSeq = s.nextSeq ∧
    (s.moveSession d).slots = s.slots ∧ (s.moveSession d).keys = s.keys ∧ (s.moveSession d).strikes = s.strikes ∧
    (s.moveSession d).pedals = s.pedals ∧ (s.moveSession d).drive = s.drive ∧
    (s.moveSession d).frameDeadline = s.frameDeadline ∧ (s.moveSession d).thermalDeadline = s.thermalDeadline ∧
    (s.moveSession d).freeCount = s.freeCount ∧ (s.moveSession d).pending = s.pending := by
  simp [State.moveSession]

@[simp] theorem State.takeSeq_frame (s : State) :
    (s.takeSeq).clock = s.clock ∧ (s.takeSeq).linkT = s.linkT ∧ (s.takeSeq).linkC = s.linkC ∧ (s.takeSeq).linkS = s.linkS ∧
    (s.takeSeq).intake = s.intake ∧ (s.takeSeq).tracker = s.tracker ∧ (s.takeSeq).detectors = s.detectors ∧
    (s.takeSeq).speed = s.speed ∧ (s.takeSeq).stallTimer = s.stallTimer ∧ (s.takeSeq).startupTimer = s.startupTimer ∧
    (s.takeSeq).session = s.session ∧ (s.takeSeq).shaping = s.shaping ∧
    (s.takeSeq).expressionDeadline = s.expressionDeadline ∧ (s.takeSeq).struckKeys = s.struckKeys ∧
    (s.takeSeq).console = s.console ∧ (s.takeSeq).calibration = s.calibration ∧ (s.takeSeq).timing = s.timing ∧
    (s.takeSeq).queue = s.queue ∧ (s.takeSeq).slots = s.slots ∧ (s.takeSeq).keys = s.keys ∧ (s.takeSeq).strikes = s.strikes ∧
    (s.takeSeq).pedals = s.pedals ∧ (s.takeSeq).drive = s.drive ∧ (s.takeSeq).frameDeadline = s.frameDeadline ∧
    (s.takeSeq).thermalDeadline = s.thermalDeadline ∧ (s.takeSeq).freeCount = s.freeCount ∧ (s.takeSeq).pending = s.pending := by
  simp [State.takeSeq]

@[simp] theorem State.countDrop_frame (s : State) :
    (s.countDrop).clock = s.clock ∧ (s.countDrop).intake = s.intake ∧ (s.countDrop).tracker = s.tracker ∧
    (s.countDrop).detectors = s.detectors ∧ (s.countDrop).speed = s.speed ∧ (s.countDrop).stallTimer = s.stallTimer ∧
    (s.countDrop).startupTimer = s.startupTimer ∧ (s.countDrop).session = s.session ∧ (s.countDrop).shaping = s.shaping ∧
    (s.countDrop).expressionDeadline = s.expressionDeadline ∧ (s.countDrop).struckKeys = s.struckKeys ∧
    (s.countDrop).console = s.console ∧ (s.countDrop).calibration = s.calibration ∧ (s.countDrop).timing = s.timing ∧
    (s.countDrop).queue = s.queue ∧ (s.countDrop).nextSeq = s.nextSeq ∧ (s.countDrop).slots = s.slots ∧
    (s.countDrop).keys = s.keys ∧ (s.countDrop).pedals = s.pedals ∧ (s.countDrop).drive = s.drive ∧
    (s.countDrop).frameDeadline = s.frameDeadline ∧ (s.countDrop).thermalDeadline = s.thermalDeadline ∧
    (s.countDrop).freeCount = s.freeCount ∧ (s.countDrop).pending = s.pending := by
  simp [State.countDrop]

@[simp] theorem State.startStallTimer_frame (s : State) :
    (s.startStallTimer).clock = s.clock ∧ (s.startStallTimer).linkT = s.linkT ∧ (s.startStallTimer).linkC = s.linkC ∧
    (s.startStallTimer).linkS = s.linkS ∧ (s.startStallTimer).intake = s.intake ∧ (s.startStallTimer).tracker = s.tracker ∧
    (s.startStallTimer).detectors = s.detectors ∧ (s.startStallTimer).speed = s.speed ∧
    (s.startStallTimer).startupTimer = s.startupTimer ∧ (s.startStallTimer).session = s.session ∧
    (s.startStallTimer).shaping = s.shaping ∧ (s.startStallTimer).expressionDeadline = s.expressionDeadline ∧
    (s.startStallTimer).struckKeys = s.struckKeys ∧ (s.startStallTimer).console = s.console ∧
    (s.startStallTimer).calibration = s.calibration ∧ (s.startStallTimer).timing = s.timing ∧
    (s.startStallTimer).queue = s.queue ∧ (s.startStallTimer).nextSeq = s.nextSeq ∧ (s.startStallTimer).slots = s.slots ∧
    (s.startStallTimer).keys = s.keys ∧ (s.startStallTimer).strikes = s.strikes ∧ (s.startStallTimer).pedals = s.pedals ∧
    (s.startStallTimer).drive = s.drive ∧ (s.startStallTimer).frameDeadline = s.frameDeadline ∧
    (s.startStallTimer).thermalDeadline = s.thermalDeadline ∧ (s.startStallTimer).freeCount = s.freeCount ∧
    (s.startStallTimer).pending = s.pending := by
  simp [State.startStallTimer]

@[simp] theorem State.setAnchor_frame (s : State) (m : Mark) :
    (s.setAnchor m).clock = s.clock ∧ (s.setAnchor m).linkT = s.linkT ∧ (s.setAnchor m).linkC = s.linkC ∧
    (s.setAnchor m).linkS = s.linkS ∧ (s.setAnchor m).intake = s.intake ∧ (s.setAnchor m).tracker = s.tracker ∧
    (s.setAnchor m).detectors = s.detectors ∧ (s.setAnchor m).stallTimer = s.stallTimer ∧
    (s.setAnchor m).startupTimer = s.startupTimer ∧ (s.setAnchor m).session = s.session ∧
    (s.setAnchor m).shaping = s.shaping ∧ (s.setAnchor m).expressionDeadline = s.expressionDeadline ∧
    (s.setAnchor m).struckKeys = s.struckKeys ∧ (s.setAnchor m).console = s.console ∧
    (s.setAnchor m).calibration = s.calibration ∧ (s.setAnchor m).timing = s.timing ∧ (s.setAnchor m).queue = s.queue ∧
    (s.setAnchor m).nextSeq = s.nextSeq ∧ (s.setAnchor m).slots = s.slots ∧ (s.setAnchor m).keys = s.keys ∧
    (s.setAnchor m).strikes = s.strikes ∧ (s.setAnchor m).pedals = s.pedals ∧ (s.setAnchor m).drive = s.drive ∧
    (s.setAnchor m).frameDeadline = s.frameDeadline ∧ (s.setAnchor m).thermalDeadline = s.thermalDeadline ∧
    (s.setAnchor m).freeCount = s.freeCount ∧ (s.setAnchor m).pending = s.pending := by
  simp [State.setAnchor]

@[simp] theorem State.overrun_frame (s : State) :
    (s.overrun).clock = s.clock ∧ (s.overrun).tracker = s.tracker ∧ (s.overrun).detectors = s.detectors ∧
    (s.overrun).speed = s.speed ∧ (s.overrun).stallTimer = s.stallTimer ∧ (s.overrun).startupTimer = s.startupTimer ∧
    (s.overrun).session = s.session ∧ (s.overrun).shaping = s.shaping ∧
    (s.overrun).expressionDeadline = s.expressionDeadline ∧ (s.overrun).struckKeys = s.struckKeys ∧
    (s.overrun).console = s.console ∧ (s.overrun).calibration = s.calibration ∧ (s.overrun).timing = s.timing ∧
    (s.overrun).queue = s.queue ∧ (s.overrun).nextSeq = s.nextSeq ∧ (s.overrun).slots = s.slots ∧ (s.overrun).keys = s.keys ∧
    (s.overrun).strikes = s.strikes ∧ (s.overrun).pedals = s.pedals ∧ (s.overrun).drive = s.drive ∧
    (s.overrun).frameDeadline = s.frameDeadline ∧ (s.overrun).thermalDeadline = s.thermalDeadline ∧
    (s.overrun).freeCount = s.freeCount ∧ (s.overrun).pending = s.pending := by
  simp [State.overrun]

@[simp] theorem State.refuseLine_frame (s : State) :
    (s.refuseLine).clock = s.clock ∧ (s.refuseLine).linkT = s.linkT ∧ (s.refuseLine).linkC = s.linkC ∧
    (s.refuseLine).linkS = s.linkS ∧ (s.refuseLine).tracker = s.tracker ∧ (s.refuseLine).detectors = s.detectors ∧
    (s.refuseLine).speed = s.speed ∧ (s.refuseLine).stallTimer = s.stallTimer ∧
    (s.refuseLine).startupTimer = s.startupTimer ∧ (s.refuseLine).session = s.session ∧ (s.refuseLine).shaping = s.shaping ∧
    (s.refuseLine).expressionDeadline = s.expressionDeadline ∧ (s.refuseLine).struckKeys = s.struckKeys ∧
    (s.refuseLine).console = s.console ∧ (s.refuseLine).calibration = s.calibration ∧ (s.refuseLine).timing = s.timing ∧
    (s.refuseLine).queue = s.queue ∧ (s.refuseLine).nextSeq = s.nextSeq ∧ (s.refuseLine).slots = s.slots ∧
    (s.refuseLine).keys = s.keys ∧ (s.refuseLine).strikes = s.strikes ∧ (s.refuseLine).pedals = s.pedals ∧
    (s.refuseLine).drive = s.drive ∧ (s.refuseLine).frameDeadline = s.frameDeadline ∧
    (s.refuseLine).thermalDeadline = s.thermalDeadline ∧ (s.refuseLine).freeCount = s.freeCount ∧
    (s.refuseLine).pending = s.pending := by
  simp [State.refuseLine]

@[simp] theorem State.clearRoll_frame (s : State) :
    (s.clearRoll).clock = s.clock ∧ (s.clearRoll).linkT = s.linkT ∧ (s.clearRoll).linkC = s.linkC ∧
    (s.clearRoll).linkS = s.linkS ∧ (s.clearRoll).intake = s.intake ∧ (s.clearRoll).speed = s.speed ∧
    (s.clearRoll).stallTimer = s.stallTimer ∧ (s.clearRoll).startupTimer = s.startupTimer ∧
    (s.clearRoll).shaping = s.shaping ∧ (s.clearRoll).expressionDeadline = s.expressionDeadline ∧
    (s.clearRoll).struckKeys = s.struckKeys ∧ (s.clearRoll).console = s.console ∧ (s.clearRoll).calibration = s.calibration ∧
    (s.clearRoll).timing = s.timing ∧ (s.clearRoll).queue = s.queue ∧ (s.clearRoll).nextSeq = s.nextSeq ∧
    (s.clearRoll).slots = s.slots ∧ (s.clearRoll).keys = s.keys ∧ (s.clearRoll).strikes = s.strikes ∧
    (s.clearRoll).pedals = s.pedals ∧ (s.clearRoll).drive = s.drive ∧ (s.clearRoll).frameDeadline = s.frameDeadline ∧
    (s.clearRoll).thermalDeadline = s.thermalDeadline ∧ (s.clearRoll).freeCount = s.freeCount ∧
    (s.clearRoll).pending = s.pending := by
  simp [State.clearRoll]

@[simp] theorem State.microsecond_frame (s : State) :
    (s.microsecond).linkT = s.linkT ∧ (s.microsecond).linkC = s.linkC ∧ (s.microsecond).linkS = s.linkS ∧
    (s.microsecond).intake = s.intake ∧ (s.microsecond).tracker = s.tracker ∧ (s.microsecond).detectors = s.detectors ∧
    (s.microsecond).speed = s.speed ∧ (s.microsecond).stallTimer = s.stallTimer ∧
    (s.microsecond).startupTimer = s.startupTimer ∧ (s.microsecond).session = s.session ∧
    (s.microsecond).shaping = s.shaping ∧ (s.microsecond).expressionDeadline = s.expressionDeadline ∧
    (s.microsecond).struckKeys = s.struckKeys ∧ (s.microsecond).console = s.console ∧
    (s.microsecond).calibration = s.calibration ∧ (s.microsecond).timing = s.timing ∧ (s.microsecond).queue = s.queue ∧
    (s.microsecond).nextSeq = s.nextSeq ∧ (s.microsecond).slots = s.slots ∧ (s.microsecond).keys = s.keys ∧
    (s.microsecond).strikes = s.strikes ∧ (s.microsecond).pedals = s.pedals ∧ (s.microsecond).drive = s.drive ∧
    (s.microsecond).frameDeadline = s.frameDeadline ∧ (s.microsecond).thermalDeadline = s.thermalDeadline ∧
    (s.microsecond).pending = s.pending := by
  simp [State.microsecond]

@[simp] theorem State.drawn_frame (s : State) :
    (s.drawn).clock = s.clock ∧ (s.drawn).linkT = s.linkT ∧ (s.drawn).linkC = s.linkC ∧ (s.drawn).linkS = s.linkS ∧
    (s.drawn).intake = s.intake ∧ (s.drawn).tracker = s.tracker ∧ (s.drawn).detectors = s.detectors ∧
    (s.drawn).speed = s.speed ∧ (s.drawn).stallTimer = s.stallTimer ∧ (s.drawn).startupTimer = s.startupTimer ∧
    (s.drawn).session = s.session ∧ (s.drawn).shaping = s.shaping ∧ (s.drawn).expressionDeadline = s.expressionDeadline ∧
    (s.drawn).struckKeys = s.struckKeys ∧ (s.drawn).console = s.console ∧ (s.drawn).calibration = s.calibration ∧
    (s.drawn).timing = s.timing ∧ (s.drawn).queue = s.queue ∧ (s.drawn).nextSeq = s.nextSeq ∧ (s.drawn).slots = s.slots ∧
    (s.drawn).keys = s.keys ∧ (s.drawn).strikes = s.strikes ∧ (s.drawn).pedals = s.pedals ∧ (s.drawn).drive = s.drive ∧
    (s.drawn).frameDeadline = s.frameDeadline ∧ (s.drawn).thermalDeadline = s.thermalDeadline ∧ (s.drawn).pending = s.pending := by
  simp [State.drawn]

@[simp] theorem State.expressionTick_frame (s : State) :
    (s.expressionTick).clock = s.clock ∧ (s.expressionTick).linkT = s.linkT ∧ (s.expressionTick).linkC = s.linkC ∧
    (s.expressionTick).linkS = s.linkS ∧ (s.expressionTick).intake = s.intake ∧ (s.expressionTick).tracker = s.tracker ∧
    (s.expressionTick).detectors = s.detectors ∧ (s.expressionTick).speed = s.speed ∧
    (s.expressionTick).stallTimer = s.stallTimer ∧ (s.expressionTick).startupTimer = s.startupTimer ∧
    (s.expressionTick).session = s.session ∧ (s.expressionTick).struckKeys = s.struckKeys ∧
    (s.expressionTick).console = s.console ∧ (s.expressionTick).calibration = s.calibration ∧
    (s.expressionTick).timing = s.timing ∧ (s.expressionTick).queue = s.queue ∧ (s.expressionTick).nextSeq = s.nextSeq ∧
    (s.expressionTick).slots = s.slots ∧ (s.expressionTick).keys = s.keys ∧ (s.expressionTick).strikes = s.strikes ∧
    (s.expressionTick).pedals = s.pedals ∧ (s.expressionTick).drive = s.drive ∧
    (s.expressionTick).frameDeadline = s.frameDeadline ∧ (s.expressionTick).thermalDeadline = s.thermalDeadline ∧
    (s.expressionTick).freeCount = s.freeCount ∧ (s.expressionTick).pending = s.pending := by
  simp [State.expressionTick]

@[simp] theorem State.frameBoundary_frame (s : State) :
    (s.frameBoundary).clock = s.clock ∧ (s.frameBoundary).linkT = s.linkT ∧ (s.frameBoundary).linkC = s.linkC ∧
    (s.frameBoundary).linkS = s.linkS ∧ (s.frameBoundary).intake = s.intake ∧ (s.frameBoundary).tracker = s.tracker ∧
    (s.frameBoundary).detectors = s.detectors ∧ (s.frameBoundary).speed = s.speed ∧
    (s.frameBoundary).stallTimer = s.stallTimer ∧ (s.frameBoundary).startupTimer = s.startupTimer ∧
    (s.frameBoundary).session = s.session ∧ (s.frameBoundary).shaping = s.shaping ∧
    (s.frameBoundary).expressionDeadline = s.expressionDeadline ∧ (s.frameBoundary).struckKeys = s.struckKeys ∧
    (s.frameBoundary).console = s.console ∧ (s.frameBoundary).calibration = s.calibration ∧
    (s.frameBoundary).timing = s.timing ∧ (s.frameBoundary).queue = s.queue ∧ (s.frameBoundary).nextSeq = s.nextSeq ∧
    (s.frameBoundary).slots = s.slots ∧ (s.frameBoundary).keys = s.keys ∧ (s.frameBoundary).strikes = s.strikes ∧
    (s.frameBoundary).pedals = s.pedals ∧ (s.frameBoundary).thermalDeadline = s.thermalDeadline ∧
    (s.frameBoundary).freeCount = s.freeCount ∧ (s.frameBoundary).pending = s.pending := by
  simp [State.frameBoundary]

/-! ## Links, keys, pedals, session and queue -/

@[simp] theorem State.setLink_frame (s : State) (l : Link) (p : LinkPort) :
    (s.setLink l p).clock = s.clock ∧ (s.setLink l p).intake = s.intake ∧ (s.setLink l p).tracker = s.tracker ∧
    (s.setLink l p).detectors = s.detectors ∧ (s.setLink l p).speed = s.speed ∧ (s.setLink l p).stallTimer = s.stallTimer ∧
    (s.setLink l p).startupTimer = s.startupTimer ∧ (s.setLink l p).session = s.session ∧
    (s.setLink l p).shaping = s.shaping ∧ (s.setLink l p).expressionDeadline = s.expressionDeadline ∧
    (s.setLink l p).struckKeys = s.struckKeys ∧ (s.setLink l p).console = s.console ∧
    (s.setLink l p).calibration = s.calibration ∧ (s.setLink l p).timing = s.timing ∧ (s.setLink l p).queue = s.queue ∧
    (s.setLink l p).nextSeq = s.nextSeq ∧ (s.setLink l p).slots = s.slots ∧ (s.setLink l p).keys = s.keys ∧
    (s.setLink l p).strikes = s.strikes ∧ (s.setLink l p).pedals = s.pedals ∧ (s.setLink l p).drive = s.drive ∧
    (s.setLink l p).frameDeadline = s.frameDeadline ∧ (s.setLink l p).thermalDeadline = s.thermalDeadline ∧
    (s.setLink l p).freeCount = s.freeCount ∧ (s.setLink l p).pending = s.pending := by
  cases l <;> simp [State.setLink]

@[simp] theorem State.endTransaction_frame (s : State) (l : Link) (n : Nat) (x : Fin 8) :
    (s.endTransaction l n x).clock = s.clock ∧ (s.endTransaction l n x).intake = s.intake ∧
    (s.endTransaction l n x).tracker = s.tracker ∧ (s.endTransaction l n x).detectors = s.detectors ∧
    (s.endTransaction l n x).speed = s.speed ∧ (s.endTransaction l n x).stallTimer = s.stallTimer ∧
    (s.endTransaction l n x).startupTimer = s.startupTimer ∧ (s.endTransaction l n x).session = s.session ∧
    (s.endTransaction l n x).shaping = s.shaping ∧ (s.endTransaction l n x).expressionDeadline = s.expressionDeadline ∧
    (s.endTransaction l n x).struckKeys = s.struckKeys ∧ (s.endTransaction l n x).console = s.console ∧
    (s.endTransaction l n x).calibration = s.calibration ∧ (s.endTransaction l n x).timing = s.timing ∧
    (s.endTransaction l n x).queue = s.queue ∧ (s.endTransaction l n x).nextSeq = s.nextSeq ∧
    (s.endTransaction l n x).slots = s.slots ∧ (s.endTransaction l n x).keys = s.keys ∧
    (s.endTransaction l n x).strikes = s.strikes ∧ (s.endTransaction l n x).pedals = s.pedals ∧
    (s.endTransaction l n x).drive = s.drive ∧ (s.endTransaction l n x).frameDeadline = s.frameDeadline ∧
    (s.endTransaction l n x).thermalDeadline = s.thermalDeadline ∧ (s.endTransaction l n x).freeCount = s.freeCount ∧
    (s.endTransaction l n x).pending = s.pending := by
  simp [State.endTransaction]

@[simp] theorem State.answer_frame (s : State) (l : Link) (r : Reply) :
    (s.answer l r).clock = s.clock ∧ (s.answer l r).intake = s.intake ∧ (s.answer l r).tracker = s.tracker ∧
    (s.answer l r).detectors = s.detectors ∧ (s.answer l r).speed = s.speed ∧ (s.answer l r).stallTimer = s.stallTimer ∧
    (s.answer l r).startupTimer = s.startupTimer ∧ (s.answer l r).session = s.session ∧ (s.answer l r).shaping = s.shaping ∧
    (s.answer l r).expressionDeadline = s.expressionDeadline ∧ (s.answer l r).struckKeys = s.struckKeys ∧
    (s.answer l r).console = s.console ∧ (s.answer l r).calibration = s.calibration ∧ (s.answer l r).timing = s.timing ∧
    (s.answer l r).queue = s.queue ∧ (s.answer l r).nextSeq = s.nextSeq ∧ (s.answer l r).slots = s.slots ∧
    (s.answer l r).keys = s.keys ∧ (s.answer l r).strikes = s.strikes ∧ (s.answer l r).pedals = s.pedals ∧
    (s.answer l r).drive = s.drive ∧ (s.answer l r).frameDeadline = s.frameDeadline ∧
    (s.answer l r).thermalDeadline = s.thermalDeadline ∧ (s.answer l r).freeCount = s.freeCount ∧
    (s.answer l r).pending = s.pending := by
  simp [State.answer]

@[simp] theorem State.releaseIgnored_frame (s : State) (l : Link) :
    (s.releaseIgnored l).clock = s.clock ∧ (s.releaseIgnored l).intake = s.intake ∧
    (s.releaseIgnored l).tracker = s.tracker ∧ (s.releaseIgnored l).detectors = s.detectors ∧
    (s.releaseIgnored l).speed = s.speed ∧ (s.releaseIgnored l).stallTimer = s.stallTimer ∧
    (s.releaseIgnored l).startupTimer = s.startupTimer ∧ (s.releaseIgnored l).session = s.session ∧
    (s.releaseIgnored l).shaping = s.shaping ∧ (s.releaseIgnored l).expressionDeadline = s.expressionDeadline ∧
    (s.releaseIgnored l).struckKeys = s.struckKeys ∧ (s.releaseIgnored l).console = s.console ∧
    (s.releaseIgnored l).calibration = s.calibration ∧ (s.releaseIgnored l).timing = s.timing ∧
    (s.releaseIgnored l).queue = s.queue ∧ (s.releaseIgnored l).nextSeq = s.nextSeq ∧ (s.releaseIgnored l).slots = s.slots ∧
    (s.releaseIgnored l).keys = s.keys ∧ (s.releaseIgnored l).strikes = s.strikes ∧ (s.releaseIgnored l).pedals = s.pedals ∧
    (s.releaseIgnored l).drive = s.drive ∧ (s.releaseIgnored l).frameDeadline = s.frameDeadline ∧
    (s.releaseIgnored l).thermalDeadline = s.thermalDeadline ∧ (s.releaseIgnored l).freeCount = s.freeCount ∧
    (s.releaseIgnored l).pending = s.pending := by
  simp [State.releaseIgnored]

@[simp] theorem State.startTransaction_frame (s : State) (l : Link) :
    (s.startTransaction l).clock = s.clock ∧ (s.startTransaction l).intake = s.intake ∧
    (s.startTransaction l).tracker = s.tracker ∧ (s.startTransaction l).detectors = s.detectors ∧
    (s.startTransaction l).speed = s.speed ∧ (s.startTransaction l).stallTimer = s.stallTimer ∧
    (s.startTransaction l).startupTimer = s.startupTimer ∧ (s.startTransaction l).session = s.session ∧
    (s.startTransaction l).shaping = s.shaping ∧ (s.startTransaction l).expressionDeadline = s.expressionDeadline ∧
    (s.startTransaction l).struckKeys = s.struckKeys ∧ (s.startTransaction l).console = s.console ∧
    (s.startTransaction l).calibration = s.calibration ∧ (s.startTransaction l).timing = s.timing ∧
    (s.startTransaction l).queue = s.queue ∧ (s.startTransaction l).nextSeq = s.nextSeq ∧
    (s.startTransaction l).slots = s.slots ∧ (s.startTransaction l).keys = s.keys ∧
    (s.startTransaction l).strikes = s.strikes ∧ (s.startTransaction l).pedals = s.pedals ∧
    (s.startTransaction l).drive = s.drive ∧ (s.startTransaction l).frameDeadline = s.frameDeadline ∧
    (s.startTransaction l).thermalDeadline = s.thermalDeadline ∧ (s.startTransaction l).freeCount = s.freeCount ∧
    (s.startTransaction l).pending = s.pending := by
  generalize h : s.startTransaction l = t; unfold State.startTransaction at h; dsimp only at h; (repeat' split at h) <;> (subst h; simp)

@[simp] theorem State.discardFrame_frame (s : State) (l : Link) (f : Frame) :
    (s.discardFrame l f).clock = s.clock ∧ (s.discardFrame l f).intake = s.intake ∧
    (s.discardFrame l f).tracker = s.tracker ∧ (s.discardFrame l f).detectors = s.detectors ∧
    (s.discardFrame l f).speed = s.speed ∧ (s.discardFrame l f).stallTimer = s.stallTimer ∧
    (s.discardFrame l f).startupTimer = s.startupTimer ∧ (s.discardFrame l f).session = s.session ∧
    (s.discardFrame l f).shaping = s.shaping ∧ (s.discardFrame l f).expressionDeadline = s.expressionDeadline ∧
    (s.discardFrame l f).struckKeys = s.struckKeys ∧ (s.discardFrame l f).console = s.console ∧
    (s.discardFrame l f).calibration = s.calibration ∧ (s.discardFrame l f).timing = s.timing ∧
    (s.discardFrame l f).queue = s.queue ∧ (s.discardFrame l f).nextSeq = s.nextSeq ∧ (s.discardFrame l f).slots = s.slots ∧
    (s.discardFrame l f).keys = s.keys ∧ (s.discardFrame l f).strikes = s.strikes ∧ (s.discardFrame l f).pedals = s.pedals ∧
    (s.discardFrame l f).drive = s.drive ∧ (s.discardFrame l f).frameDeadline = s.frameDeadline ∧
    (s.discardFrame l f).thermalDeadline = s.thermalDeadline ∧ (s.discardFrame l f).freeCount = s.freeCount ∧
    (s.discardFrame l f).pending = s.pending := by
  generalize h : s.discardFrame l f = t; unfold State.discardFrame at h; dsimp only at h; (repeat' split at h) <;> (subst h; simp)

@[simp] theorem State.answerUnknown_frame (s : State) (h : Head) :
    (s.answerUnknown h).clock = s.clock ∧ (s.answerUnknown h).intake = s.intake ∧ (s.answerUnknown h).tracker = s.tracker ∧
    (s.answerUnknown h).detectors = s.detectors ∧ (s.answerUnknown h).speed = s.speed ∧
    (s.answerUnknown h).stallTimer = s.stallTimer ∧ (s.answerUnknown h).startupTimer = s.startupTimer ∧
    (s.answerUnknown h).session = s.session ∧ (s.answerUnknown h).shaping = s.shaping ∧
    (s.answerUnknown h).expressionDeadline = s.expressionDeadline ∧ (s.answerUnknown h).struckKeys = s.struckKeys ∧
    (s.answerUnknown h).console = s.console ∧ (s.answerUnknown h).calibration = s.calibration ∧
    (s.answerUnknown h).timing = s.timing ∧ (s.answerUnknown h).queue = s.queue ∧ (s.answerUnknown h).nextSeq = s.nextSeq ∧
    (s.answerUnknown h).slots = s.slots ∧ (s.answerUnknown h).keys = s.keys ∧ (s.answerUnknown h).strikes = s.strikes ∧
    (s.answerUnknown h).pedals = s.pedals ∧ (s.answerUnknown h).drive = s.drive ∧
    (s.answerUnknown h).frameDeadline = s.frameDeadline ∧ (s.answerUnknown h).thermalDeadline = s.thermalDeadline ∧
    (s.answerUnknown h).freeCount = s.freeCount ∧ (s.answerUnknown h).pending = s.pending := by
  generalize h : s.answerUnknown h = t; unfold State.answerUnknown at h; (repeat' split at h) <;> (subst h; simp)

@[simp] theorem State.ackEvents_frame (s : State) (l : Link) (x : BitVec 8) :
    (s.ackEvents l x).clock = s.clock ∧ (s.ackEvents l x).intake = s.intake ∧ (s.ackEvents l x).tracker = s.tracker ∧
    (s.ackEvents l x).detectors = s.detectors ∧ (s.ackEvents l x).speed = s.speed ∧
    (s.ackEvents l x).stallTimer = s.stallTimer ∧ (s.ackEvents l x).startupTimer = s.startupTimer ∧
    (s.ackEvents l x).session = s.session ∧ (s.ackEvents l x).shaping = s.shaping ∧
    (s.ackEvents l x).expressionDeadline = s.expressionDeadline ∧ (s.ackEvents l x).struckKeys = s.struckKeys ∧
    (s.ackEvents l x).console = s.console ∧ (s.ackEvents l x).calibration = s.calibration ∧
    (s.ackEvents l x).timing = s.timing ∧ (s.ackEvents l x).queue = s.queue ∧ (s.ackEvents l x).nextSeq = s.nextSeq ∧
    (s.ackEvents l x).slots = s.slots ∧ (s.ackEvents l x).keys = s.keys ∧ (s.ackEvents l x).strikes = s.strikes ∧
    (s.ackEvents l x).pedals = s.pedals ∧ (s.ackEvents l x).drive = s.drive ∧
    (s.ackEvents l x).frameDeadline = s.frameDeadline ∧ (s.ackEvents l x).thermalDeadline = s.thermalDeadline ∧
    (s.ackEvents l x).freeCount = s.freeCount ∧ (s.ackEvents l x).pending = s.pending := by
  simp [State.ackEvents]

@[simp] theorem State.setMask_frame (s : State) (l : Link) (x : BitVec 8) :
    (s.setMask l x).clock = s.clock ∧ (s.setMask l x).intake = s.intake ∧ (s.setMask l x).tracker = s.tracker ∧
    (s.setMask l x).detectors = s.detectors ∧ (s.setMask l x).speed = s.speed ∧ (s.setMask l x).stallTimer = s.stallTimer ∧
    (s.setMask l x).startupTimer = s.startupTimer ∧ (s.setMask l x).session = s.session ∧
    (s.setMask l x).shaping = s.shaping ∧ (s.setMask l x).expressionDeadline = s.expressionDeadline ∧
    (s.setMask l x).struckKeys = s.struckKeys ∧ (s.setMask l x).console = s.console ∧
    (s.setMask l x).calibration = s.calibration ∧ (s.setMask l x).timing = s.timing ∧ (s.setMask l x).queue = s.queue ∧
    (s.setMask l x).nextSeq = s.nextSeq ∧ (s.setMask l x).slots = s.slots ∧ (s.setMask l x).keys = s.keys ∧
    (s.setMask l x).strikes = s.strikes ∧ (s.setMask l x).pedals = s.pedals ∧ (s.setMask l x).drive = s.drive ∧
    (s.setMask l x).frameDeadline = s.frameDeadline ∧ (s.setMask l x).thermalDeadline = s.thermalDeadline ∧
    (s.setMask l x).freeCount = s.freeCount ∧ (s.setMask l x).pending = s.pending := by
  simp [State.setMask]

@[simp] theorem State.clearOwnerOf_frame (s : State) (k : Key) (t : Owner) :
    (s.clearOwnerOf k t).clock = s.clock ∧ (s.clearOwnerOf k t).linkT = s.linkT ∧ (s.clearOwnerOf k t).linkC = s.linkC ∧
    (s.clearOwnerOf k t).linkS = s.linkS ∧ (s.clearOwnerOf k t).intake = s.intake ∧
    (s.clearOwnerOf k t).tracker = s.tracker ∧ (s.clearOwnerOf k t).detectors = s.detectors ∧
    (s.clearOwnerOf k t).speed = s.speed ∧ (s.clearOwnerOf k t).stallTimer = s.stallTimer ∧
    (s.clearOwnerOf k t).startupTimer = s.startupTimer ∧ (s.clearOwnerOf k t).session = s.session ∧
    (s.clearOwnerOf k t).shaping = s.shaping ∧ (s.clearOwnerOf k t).expressionDeadline = s.expressionDeadline ∧
    (s.clearOwnerOf k t).struckKeys = s.struckKeys ∧ (s.clearOwnerOf k t).console = s.console ∧
    (s.clearOwnerOf k t).calibration = s.calibration ∧ (s.clearOwnerOf k t).timing = s.timing ∧
    (s.clearOwnerOf k t).queue = s.queue ∧ (s.clearOwnerOf k t).nextSeq = s.nextSeq ∧ (s.clearOwnerOf k t).slots = s.slots ∧
    (s.clearOwnerOf k t).strikes = s.strikes ∧ (s.clearOwnerOf k t).pedals = s.pedals ∧
    (s.clearOwnerOf k t).drive = s.drive ∧ (s.clearOwnerOf k t).frameDeadline = s.frameDeadline ∧
    (s.clearOwnerOf k t).thermalDeadline = s.thermalDeadline ∧ (s.clearOwnerOf k t).freeCount = s.freeCount ∧
    (s.clearOwnerOf k t).pending = s.pending := by
  generalize h : s.clearOwnerOf k t = t; unfold State.clearOwnerOf at h; (repeat' split at h) <;> (subst h; simp)

@[simp] theorem State.startStrike_frame (s : State) (st : Strike) :
    (s.startStrike st).clock = s.clock ∧ (s.startStrike st).intake = s.intake ∧ (s.startStrike st).tracker = s.tracker ∧
    (s.startStrike st).detectors = s.detectors ∧ (s.startStrike st).speed = s.speed ∧
    (s.startStrike st).stallTimer = s.stallTimer ∧ (s.startStrike st).startupTimer = s.startupTimer ∧
    (s.startStrike st).session = s.session ∧ (s.startStrike st).shaping = s.shaping ∧
    (s.startStrike st).expressionDeadline = s.expressionDeadline ∧ (s.startStrike st).struckKeys = s.struckKeys ∧
    (s.startStrike st).console = s.console ∧ (s.startStrike st).calibration = s.calibration ∧
    (s.startStrike st).timing = s.timing ∧ (s.startStrike st).queue = s.queue ∧ (s.startStrike st).nextSeq = s.nextSeq ∧
    (s.startStrike st).pedals = s.pedals ∧ (s.startStrike st).drive = s.drive ∧
    (s.startStrike st).frameDeadline = s.frameDeadline ∧ (s.startStrike st).thermalDeadline = s.thermalDeadline ∧
    (s.startStrike st).freeCount = s.freeCount ∧ (s.startStrike st).pending = s.pending := by
  generalize h : s.startStrike st = t; unfold State.startStrike at h; dsimp only at h; (repeat' split at h) <;> (subst h; simp)

@[simp] theorem State.thermalTick_frame (s : State) :
    (s.thermalTick).clock = s.clock ∧ (s.thermalTick).intake = s.intake ∧ (s.thermalTick).tracker = s.tracker ∧
    (s.thermalTick).detectors = s.detectors ∧ (s.thermalTick).speed = s.speed ∧ (s.thermalTick).stallTimer = s.stallTimer ∧
    (s.thermalTick).startupTimer = s.startupTimer ∧ (s.thermalTick).session = s.session ∧
    (s.thermalTick).shaping = s.shaping ∧ (s.thermalTick).expressionDeadline = s.expressionDeadline ∧
    (s.thermalTick).struckKeys = s.struckKeys ∧ (s.thermalTick).console = s.console ∧
    (s.thermalTick).calibration = s.calibration ∧ (s.thermalTick).timing = s.timing ∧ (s.thermalTick).queue = s.queue ∧
    (s.thermalTick).nextSeq = s.nextSeq ∧ (s.thermalTick).slots = s.slots ∧ (s.thermalTick).strikes = s.strikes ∧
    (s.thermalTick).pedals = s.pedals ∧ (s.thermalTick).drive = s.drive ∧ (s.thermalTick).frameDeadline = s.frameDeadline ∧
    (s.thermalTick).freeCount = s.freeCount ∧ (s.thermalTick).pending = s.pending := by
  generalize h : s.thermalTick = t; unfold State.thermalTick at h; dsimp only at h; (repeat' split at h) <;> (subst h; simp)

@[simp] theorem State.endStrike_frame (s : State) (k : Key) (b : Bool) (o : Owner) :
    (s.endStrike k b o).clock = s.clock ∧ (s.endStrike k b o).linkT = s.linkT ∧ (s.endStrike k b o).linkC = s.linkC ∧
    (s.endStrike k b o).linkS = s.linkS ∧ (s.endStrike k b o).intake = s.intake ∧ (s.endStrike k b o).tracker = s.tracker ∧
    (s.endStrike k b o).detectors = s.detectors ∧ (s.endStrike k b o).speed = s.speed ∧
    (s.endStrike k b o).stallTimer = s.stallTimer ∧ (s.endStrike k b o).startupTimer = s.startupTimer ∧
    (s.endStrike k b o).session = s.session ∧ (s.endStrike k b o).shaping = s.shaping ∧
    (s.endStrike k b o).expressionDeadline = s.expressionDeadline ∧ (s.endStrike k b o).struckKeys = s.struckKeys ∧
    (s.endStrike k b o).console = s.console ∧ (s.endStrike k b o).calibration = s.calibration ∧
    (s.endStrike k b o).timing = s.timing ∧ (s.endStrike k b o).queue = s.queue ∧ (s.endStrike k b o).nextSeq = s.nextSeq ∧
    (s.endStrike k b o).strikes = s.strikes ∧ (s.endStrike k b o).pedals = s.pedals ∧ (s.endStrike k b o).drive = s.drive ∧
    (s.endStrike k b o).frameDeadline = s.frameDeadline ∧ (s.endStrike k b o).thermalDeadline = s.thermalDeadline ∧
    (s.endStrike k b o).freeCount = s.freeCount ∧ (s.endStrike k b o).pending = s.pending := by
  generalize h : s.endStrike k b o = t; unfold State.endStrike at h; dsimp only at h; (repeat' split at h) <;> (subst h; simp)

@[simp] theorem State.reformDamper_frame (s : State) :
    (s.reformDamper).clock = s.clock ∧ (s.reformDamper).linkT = s.linkT ∧ (s.reformDamper).linkC = s.linkC ∧
    (s.reformDamper).linkS = s.linkS ∧ (s.reformDamper).intake = s.intake ∧ (s.reformDamper).tracker = s.tracker ∧
    (s.reformDamper).detectors = s.detectors ∧ (s.reformDamper).speed = s.speed ∧
    (s.reformDamper).stallTimer = s.stallTimer ∧ (s.reformDamper).startupTimer = s.startupTimer ∧
    (s.reformDamper).session = s.session ∧ (s.reformDamper).expressionDeadline = s.expressionDeadline ∧
    (s.reformDamper).struckKeys = s.struckKeys ∧ (s.reformDamper).console = s.console ∧
    (s.reformDamper).calibration = s.calibration ∧ (s.reformDamper).timing = s.timing ∧ (s.reformDamper).queue = s.queue ∧
    (s.reformDamper).nextSeq = s.nextSeq ∧ (s.reformDamper).slots = s.slots ∧ (s.reformDamper).keys = s.keys ∧
    (s.reformDamper).strikes = s.strikes ∧ (s.reformDamper).drive = s.drive ∧
    (s.reformDamper).frameDeadline = s.frameDeadline ∧ (s.reformDamper).thermalDeadline = s.thermalDeadline ∧
    (s.reformDamper).freeCount = s.freeCount ∧ (s.reformDamper).pending = s.pending := by
  generalize h : s.reformDamper = t; unfold State.reformDamper at h; dsimp only at h; (repeat' split at h) <;> (subst h; simp)

@[simp] theorem State.reformSoft_frame (s : State) :
    (s.reformSoft).clock = s.clock ∧ (s.reformSoft).linkT = s.linkT ∧ (s.reformSoft).linkC = s.linkC ∧
    (s.reformSoft).linkS = s.linkS ∧ (s.reformSoft).intake = s.intake ∧ (s.reformSoft).tracker = s.tracker ∧
    (s.reformSoft).detectors = s.detectors ∧ (s.reformSoft).speed = s.speed ∧ (s.reformSoft).stallTimer = s.stallTimer ∧
    (s.reformSoft).startupTimer = s.startupTimer ∧ (s.reformSoft).session = s.session ∧
    (s.reformSoft).expressionDeadline = s.expressionDeadline ∧ (s.reformSoft).struckKeys = s.struckKeys ∧
    (s.reformSoft).console = s.console ∧ (s.reformSoft).calibration = s.calibration ∧ (s.reformSoft).timing = s.timing ∧
    (s.reformSoft).queue = s.queue ∧ (s.reformSoft).nextSeq = s.nextSeq ∧ (s.reformSoft).slots = s.slots ∧
    (s.reformSoft).keys = s.keys ∧ (s.reformSoft).strikes = s.strikes ∧ (s.reformSoft).drive = s.drive ∧
    (s.reformSoft).frameDeadline = s.frameDeadline ∧ (s.reformSoft).thermalDeadline = s.thermalDeadline ∧
    (s.reformSoft).freeCount = s.freeCount ∧ (s.reformSoft).pending = s.pending := by
  generalize h : s.reformSoft = t; unfold State.reformSoft at h; dsimp only at h; (repeat' split at h) <;> (subst h; simp)

@[simp] theorem State.reformMerge_frame (s : State) :
    (s.reformMerge).clock = s.clock ∧ (s.reformMerge).linkT = s.linkT ∧ (s.reformMerge).linkC = s.linkC ∧
    (s.reformMerge).linkS = s.linkS ∧ (s.reformMerge).intake = s.intake ∧ (s.reformMerge).tracker = s.tracker ∧
    (s.reformMerge).detectors = s.detectors ∧ (s.reformMerge).speed = s.speed ∧ (s.reformMerge).stallTimer = s.stallTimer ∧
    (s.reformMerge).startupTimer = s.startupTimer ∧ (s.reformMerge).session = s.session ∧
    (s.reformMerge).expressionDeadline = s.expressionDeadline ∧ (s.reformMerge).struckKeys = s.struckKeys ∧
    (s.reformMerge).console = s.console ∧ (s.reformMerge).calibration = s.calibration ∧ (s.reformMerge).timing = s.timing ∧
    (s.reformMerge).queue = s.queue ∧ (s.reformMerge).nextSeq = s.nextSeq ∧ (s.reformMerge).slots = s.slots ∧
    (s.reformMerge).keys = s.keys ∧ (s.reformMerge).strikes = s.strikes ∧ (s.reformMerge).drive = s.drive ∧
    (s.reformMerge).frameDeadline = s.frameDeadline ∧ (s.reformMerge).thermalDeadline = s.thermalDeadline ∧
    (s.reformMerge).freeCount = s.freeCount ∧ (s.reformMerge).pending = s.pending := by
  simp [State.reformMerge]

@[simp] theorem State.setRollRequests_frame (s : State) (d p : Nat) :
    (s.setRollRequests d p).clock = s.clock ∧ (s.setRollRequests d p).linkT = s.linkT ∧
    (s.setRollRequests d p).linkC = s.linkC ∧ (s.setRollRequests d p).linkS = s.linkS ∧
    (s.setRollRequests d p).intake = s.intake ∧ (s.setRollRequests d p).tracker = s.tracker ∧
    (s.setRollRequests d p).detectors = s.detectors ∧ (s.setRollRequests d p).speed = s.speed ∧
    (s.setRollRequests d p).stallTimer = s.stallTimer ∧ (s.setRollRequests d p).startupTimer = s.startupTimer ∧
    (s.setRollRequests d p).session = s.session ∧ (s.setRollRequests d p).expressionDeadline = s.expressionDeadline ∧
    (s.setRollRequests d p).struckKeys = s.struckKeys ∧ (s.setRollRequests d p).console = s.console ∧
    (s.setRollRequests d p).calibration = s.calibration ∧ (s.setRollRequests d p).timing = s.timing ∧
    (s.setRollRequests d p).queue = s.queue ∧ (s.setRollRequests d p).nextSeq = s.nextSeq ∧
    (s.setRollRequests d p).slots = s.slots ∧ (s.setRollRequests d p).keys = s.keys ∧
    (s.setRollRequests d p).strikes = s.strikes ∧ (s.setRollRequests d p).drive = s.drive ∧
    (s.setRollRequests d p).frameDeadline = s.frameDeadline ∧ (s.setRollRequests d p).thermalDeadline = s.thermalDeadline ∧
    (s.setRollRequests d p).freeCount = s.freeCount ∧ (s.setRollRequests d p).pending = s.pending := by
  simp [State.setRollRequests]

@[simp] theorem State.setRollRequest_frame (s : State) (p : Pedal) (v : Nat) :
    (s.setRollRequest p v).clock = s.clock ∧ (s.setRollRequest p v).linkT = s.linkT ∧
    (s.setRollRequest p v).linkC = s.linkC ∧ (s.setRollRequest p v).linkS = s.linkS ∧
    (s.setRollRequest p v).intake = s.intake ∧ (s.setRollRequest p v).tracker = s.tracker ∧
    (s.setRollRequest p v).detectors = s.detectors ∧ (s.setRollRequest p v).speed = s.speed ∧
    (s.setRollRequest p v).stallTimer = s.stallTimer ∧ (s.setRollRequest p v).startupTimer = s.startupTimer ∧
    (s.setRollRequest p v).session = s.session ∧ (s.setRollRequest p v).expressionDeadline = s.expressionDeadline ∧
    (s.setRollRequest p v).struckKeys = s.struckKeys ∧ (s.setRollRequest p v).console = s.console ∧
    (s.setRollRequest p v).calibration = s.calibration ∧ (s.setRollRequest p v).timing = s.timing ∧
    (s.setRollRequest p v).queue = s.queue ∧ (s.setRollRequest p v).nextSeq = s.nextSeq ∧
    (s.setRollRequest p v).slots = s.slots ∧ (s.setRollRequest p v).keys = s.keys ∧
    (s.setRollRequest p v).strikes = s.strikes ∧ (s.setRollRequest p v).drive = s.drive ∧
    (s.setRollRequest p v).frameDeadline = s.frameDeadline ∧ (s.setRollRequest p v).thermalDeadline = s.thermalDeadline ∧
    (s.setRollRequest p v).freeCount = s.freeCount ∧ (s.setRollRequest p v).pending = s.pending := by
  generalize h : s.setRollRequest p v = t; unfold State.setRollRequest at h; dsimp only at h; (repeat' split at h) <;> (subst h; simp)

@[simp] theorem State.sostenutoChanged_frame (s : State) (b : Bool) :
    (s.sostenutoChanged b).clock = s.clock ∧ (s.sostenutoChanged b).linkT = s.linkT ∧
    (s.sostenutoChanged b).linkC = s.linkC ∧ (s.sostenutoChanged b).linkS = s.linkS ∧
    (s.sostenutoChanged b).intake = s.intake ∧ (s.sostenutoChanged b).tracker = s.tracker ∧
    (s.sostenutoChanged b).detectors = s.detectors ∧ (s.sostenutoChanged b).speed = s.speed ∧
    (s.sostenutoChanged b).stallTimer = s.stallTimer ∧ (s.sostenutoChanged b).startupTimer = s.startupTimer ∧
    (s.sostenutoChanged b).session = s.session ∧ (s.sostenutoChanged b).shaping = s.shaping ∧
    (s.sostenutoChanged b).expressionDeadline = s.expressionDeadline ∧ (s.sostenutoChanged b).struckKeys = s.struckKeys ∧
    (s.sostenutoChanged b).console = s.console ∧ (s.sostenutoChanged b).calibration = s.calibration ∧
    (s.sostenutoChanged b).timing = s.timing ∧ (s.sostenutoChanged b).queue = s.queue ∧
    (s.sostenutoChanged b).nextSeq = s.nextSeq ∧ (s.sostenutoChanged b).slots = s.slots ∧
    (s.sostenutoChanged b).keys = s.keys ∧ (s.sostenutoChanged b).strikes = s.strikes ∧
    (s.sostenutoChanged b).drive = s.drive ∧ (s.sostenutoChanged b).frameDeadline = s.frameDeadline ∧
    (s.sostenutoChanged b).thermalDeadline = s.thermalDeadline ∧ (s.sostenutoChanged b).freeCount = s.freeCount ∧
    (s.sostenutoChanged b).pending = s.pending := by
  generalize h : s.sostenutoChanged b = t; unfold State.sostenutoChanged at h; (repeat' split at h) <;> (subst h; simp)

@[simp] theorem State.silence_frame (s : State) :
    (s.silence).clock = s.clock ∧ (s.silence).linkT = s.linkT ∧ (s.silence).linkC = s.linkC ∧ (s.silence).linkS = s.linkS ∧
    (s.silence).intake = s.intake ∧ (s.silence).tracker = s.tracker ∧ (s.silence).detectors = s.detectors ∧
    (s.silence).speed = s.speed ∧ (s.silence).stallTimer = s.stallTimer ∧ (s.silence).startupTimer = s.startupTimer ∧
    (s.silence).session = s.session ∧ (s.silence).expressionDeadline = s.expressionDeadline ∧
    (s.silence).console = s.console ∧ (s.silence).calibration = s.calibration ∧ (s.silence).timing = s.timing ∧
    (s.silence).nextSeq = s.nextSeq ∧ (s.silence).drive = s.drive ∧ (s.silence).frameDeadline = s.frameDeadline ∧
    (s.silence).thermalDeadline = s.thermalDeadline ∧ (s.silence).freeCount = s.freeCount ∧ (s.silence).pending = s.pending := by
  simp [State.silence]

@[simp] theorem State.enterReturning_frame (s : State) (c : LastCause) :
    (s.enterReturning c).clock = s.clock ∧ (s.enterReturning c).tracker = s.tracker ∧
    (s.enterReturning c).detectors = s.detectors ∧ (s.enterReturning c).expressionDeadline = s.expressionDeadline ∧
    (s.enterReturning c).console = s.console ∧ (s.enterReturning c).calibration = s.calibration ∧
    (s.enterReturning c).timing = s.timing ∧ (s.enterReturning c).nextSeq = s.nextSeq ∧
    (s.enterReturning c).drive = s.drive ∧ (s.enterReturning c).frameDeadline = s.frameDeadline ∧
    (s.enterReturning c).thermalDeadline = s.thermalDeadline ∧ (s.enterReturning c).freeCount = s.freeCount ∧
    (s.enterReturning c).pending = s.pending := by
  simp [State.enterReturning]

@[simp] theorem State.enterPaused_frame (s : State) (c : Option LastCause) :
    (s.enterPaused c).clock = s.clock ∧ (s.enterPaused c).intake = s.intake ∧ (s.enterPaused c).tracker = s.tracker ∧
    (s.enterPaused c).detectors = s.detectors ∧ (s.enterPaused c).expressionDeadline = s.expressionDeadline ∧
    (s.enterPaused c).console = s.console ∧ (s.enterPaused c).calibration = s.calibration ∧
    (s.enterPaused c).timing = s.timing ∧ (s.enterPaused c).nextSeq = s.nextSeq ∧ (s.enterPaused c).drive = s.drive ∧
    (s.enterPaused c).frameDeadline = s.frameDeadline ∧ (s.enterPaused c).thermalDeadline = s.thermalDeadline ∧
    (s.enterPaused c).freeCount = s.freeCount ∧ (s.enterPaused c).pending = s.pending := by
  simp [State.enterPaused]

@[simp] theorem State.enterStalled_frame (s : State) (c : StallCause) :
    (s.enterStalled c).clock = s.clock ∧ (s.enterStalled c).intake = s.intake ∧ (s.enterStalled c).tracker = s.tracker ∧
    (s.enterStalled c).detectors = s.detectors ∧ (s.enterStalled c).expressionDeadline = s.expressionDeadline ∧
    (s.enterStalled c).console = s.console ∧ (s.enterStalled c).calibration = s.calibration ∧
    (s.enterStalled c).timing = s.timing ∧ (s.enterStalled c).nextSeq = s.nextSeq ∧ (s.enterStalled c).drive = s.drive ∧
    (s.enterStalled c).frameDeadline = s.frameDeadline ∧ (s.enterStalled c).thermalDeadline = s.thermalDeadline ∧
    (s.enterStalled c).freeCount = s.freeCount ∧ (s.enterStalled c).pending = s.pending := by
  simp [State.enterStalled]

@[simp] theorem State.enterStarting_frame (s : State) :
    (s.enterStarting).clock = s.clock ∧ (s.enterStarting).tracker = s.tracker ∧ (s.enterStarting).detectors = s.detectors ∧
    (s.enterStarting).expressionDeadline = s.expressionDeadline ∧ (s.enterStarting).console = s.console ∧
    (s.enterStarting).calibration = s.calibration ∧ (s.enterStarting).timing = s.timing ∧
    (s.enterStarting).nextSeq = s.nextSeq ∧ (s.enterStarting).drive = s.drive ∧
    (s.enterStarting).frameDeadline = s.frameDeadline ∧ (s.enterStarting).thermalDeadline = s.thermalDeadline ∧
    (s.enterStarting).freeCount = s.freeCount ∧ (s.enterStarting).pending = s.pending := by
  generalize h : s.enterStarting = t; unfold State.enterStarting at h; dsimp only at h; (repeat' split at h) <;> (subst h; simp)

@[simp] theorem State.reportStall_frame (s : State) (c : StallCause) :
    (s.reportStall c).clock = s.clock ∧ (s.reportStall c).intake = s.intake ∧ (s.reportStall c).tracker = s.tracker ∧
    (s.reportStall c).detectors = s.detectors ∧ (s.reportStall c).expressionDeadline = s.expressionDeadline ∧
    (s.reportStall c).console = s.console ∧ (s.reportStall c).calibration = s.calibration ∧
    (s.reportStall c).timing = s.timing ∧ (s.reportStall c).nextSeq = s.nextSeq ∧ (s.reportStall c).drive = s.drive ∧
    (s.reportStall c).frameDeadline = s.frameDeadline ∧ (s.reportStall c).thermalDeadline = s.thermalDeadline ∧
    (s.reportStall c).freeCount = s.freeCount ∧ (s.reportStall c).pending = s.pending := by
  generalize h : s.reportStall c = t; unfold State.reportStall at h; dsimp only at h; (repeat' split at h) <;> (subst h; simp)

@[simp] theorem State.reportStallEnd_frame (s : State) (c : StallCause) :
    (s.reportStallEnd c).clock = s.clock ∧ (s.reportStallEnd c).tracker = s.tracker ∧
    (s.reportStallEnd c).detectors = s.detectors ∧ (s.reportStallEnd c).expressionDeadline = s.expressionDeadline ∧
    (s.reportStallEnd c).console = s.console ∧ (s.reportStallEnd c).calibration = s.calibration ∧
    (s.reportStallEnd c).timing = s.timing ∧ (s.reportStallEnd c).nextSeq = s.nextSeq ∧
    (s.reportStallEnd c).drive = s.drive ∧ (s.reportStallEnd c).frameDeadline = s.frameDeadline ∧
    (s.reportStallEnd c).thermalDeadline = s.thermalDeadline ∧ (s.reportStallEnd c).freeCount = s.freeCount ∧
    (s.reportStallEnd c).pending = s.pending := by
  generalize h : s.reportStallEnd c = t; unfold State.reportStallEnd at h; dsimp only at h; (repeat' split at h) <;> (subst h; simp)

@[simp] theorem State.driveLoss_frame (s : State) (c : LastCause) :
    (s.driveLoss c).clock = s.clock ∧ (s.driveLoss c).intake = s.intake ∧ (s.driveLoss c).tracker = s.tracker ∧
    (s.driveLoss c).detectors = s.detectors ∧ (s.driveLoss c).expressionDeadline = s.expressionDeadline ∧
    (s.driveLoss c).console = s.console ∧ (s.driveLoss c).calibration = s.calibration ∧ (s.driveLoss c).timing = s.timing ∧
    (s.driveLoss c).nextSeq = s.nextSeq ∧ (s.driveLoss c).frameDeadline = s.frameDeadline ∧
    (s.driveLoss c).thermalDeadline = s.thermalDeadline ∧ (s.driveLoss c).freeCount = s.freeCount ∧
    (s.driveLoss c).pending = s.pending := by
  generalize h : s.driveLoss c = t; unfold State.driveLoss at h; dsimp only at h; (repeat' split at h) <;> (subst h; simp)

@[simp] theorem State.faultEffects_frame (s : State) :
    (s.faultEffects).clock = s.clock ∧ (s.faultEffects).intake = s.intake ∧ (s.faultEffects).tracker = s.tracker ∧
    (s.faultEffects).detectors = s.detectors ∧ (s.faultEffects).expressionDeadline = s.expressionDeadline ∧
    (s.faultEffects).console = s.console ∧ (s.faultEffects).calibration = s.calibration ∧
    (s.faultEffects).timing = s.timing ∧ (s.faultEffects).nextSeq = s.nextSeq ∧
    (s.faultEffects).frameDeadline = s.frameDeadline ∧ (s.faultEffects).thermalDeadline = s.thermalDeadline ∧
    (s.faultEffects).freeCount = s.freeCount ∧ (s.faultEffects).pending = s.pending := by
  simp [State.faultEffects]

@[simp] theorem State.enableDrive_frame (s : State) :
    (s.enableDrive).clock = s.clock ∧ (s.enableDrive).linkT = s.linkT ∧ (s.enableDrive).linkC = s.linkC ∧
    (s.enableDrive).linkS = s.linkS ∧ (s.enableDrive).intake = s.intake ∧ (s.enableDrive).tracker = s.tracker ∧
    (s.enableDrive).detectors = s.detectors ∧ (s.enableDrive).speed = s.speed ∧ (s.enableDrive).stallTimer = s.stallTimer ∧
    (s.enableDrive).startupTimer = s.startupTimer ∧ (s.enableDrive).session = s.session ∧
    (s.enableDrive).shaping = s.shaping ∧ (s.enableDrive).expressionDeadline = s.expressionDeadline ∧
    (s.enableDrive).struckKeys = s.struckKeys ∧ (s.enableDrive).console = s.console ∧
    (s.enableDrive).calibration = s.calibration ∧ (s.enableDrive).timing = s.timing ∧ (s.enableDrive).queue = s.queue ∧
    (s.enableDrive).nextSeq = s.nextSeq ∧ (s.enableDrive).slots = s.slots ∧ (s.enableDrive).keys = s.keys ∧
    (s.enableDrive).strikes = s.strikes ∧ (s.enableDrive).frameDeadline = s.frameDeadline ∧
    (s.enableDrive).thermalDeadline = s.thermalDeadline ∧ (s.enableDrive).freeCount = s.freeCount ∧
    (s.enableDrive).pending = s.pending := by
  generalize h : s.enableDrive = t; unfold State.enableDrive at h; dsimp only at h; (repeat' split at h) <;> (subst h; simp)

@[simp] theorem State.clearDroppedOwner_frame (s : State) (e : Entry) :
    (s.clearDroppedOwner e).clock = s.clock ∧ (s.clearDroppedOwner e).linkT = s.linkT ∧
    (s.clearDroppedOwner e).linkC = s.linkC ∧ (s.clearDroppedOwner e).linkS = s.linkS ∧
    (s.clearDroppedOwner e).intake = s.intake ∧ (s.clearDroppedOwner e).tracker = s.tracker ∧
    (s.clearDroppedOwner e).detectors = s.detectors ∧ (s.clearDroppedOwner e).speed = s.speed ∧
    (s.clearDroppedOwner e).stallTimer = s.stallTimer ∧ (s.clearDroppedOwner e).startupTimer = s.startupTimer ∧
    (s.clearDroppedOwner e).session = s.session ∧ (s.clearDroppedOwner e).shaping = s.shaping ∧
    (s.clearDroppedOwner e).expressionDeadline = s.expressionDeadline ∧ (s.clearDroppedOwner e).struckKeys = s.struckKeys ∧
    (s.clearDroppedOwner e).console = s.console ∧ (s.clearDroppedOwner e).calibration = s.calibration ∧
    (s.clearDroppedOwner e).timing = s.timing ∧ (s.clearDroppedOwner e).queue = s.queue ∧
    (s.clearDroppedOwner e).nextSeq = s.nextSeq ∧ (s.clearDroppedOwner e).slots = s.slots ∧
    (s.clearDroppedOwner e).strikes = s.strikes ∧ (s.clearDroppedOwner e).pedals = s.pedals ∧
    (s.clearDroppedOwner e).drive = s.drive ∧ (s.clearDroppedOwner e).frameDeadline = s.frameDeadline ∧
    (s.clearDroppedOwner e).thermalDeadline = s.thermalDeadline ∧ (s.clearDroppedOwner e).freeCount = s.freeCount ∧
    (s.clearDroppedOwner e).pending = s.pending := by
  generalize h : s.clearDroppedOwner e = t; unfold State.clearDroppedOwner at h; (repeat' split at h) <;> (subst h; simp)

@[simp] theorem State.replaceEntry_frame (s : State) (c e : Entry) :
    (s.replaceEntry c e).clock = s.clock ∧ (s.replaceEntry c e).intake = s.intake ∧
    (s.replaceEntry c e).tracker = s.tracker ∧ (s.replaceEntry c e).detectors = s.detectors ∧
    (s.replaceEntry c e).speed = s.speed ∧ (s.replaceEntry c e).stallTimer = s.stallTimer ∧
    (s.replaceEntry c e).startupTimer = s.startupTimer ∧ (s.replaceEntry c e).session = s.session ∧
    (s.replaceEntry c e).shaping = s.shaping ∧ (s.replaceEntry c e).expressionDeadline = s.expressionDeadline ∧
    (s.replaceEntry c e).struckKeys = s.struckKeys ∧ (s.replaceEntry c e).console = s.console ∧
    (s.replaceEntry c e).calibration = s.calibration ∧ (s.replaceEntry c e).timing = s.timing ∧
    (s.replaceEntry c e).nextSeq = s.nextSeq ∧ (s.replaceEntry c e).slots = s.slots ∧
    (s.replaceEntry c e).pedals = s.pedals ∧ (s.replaceEntry c e).drive = s.drive ∧
    (s.replaceEntry c e).frameDeadline = s.frameDeadline ∧ (s.replaceEntry c e).thermalDeadline = s.thermalDeadline ∧
    (s.replaceEntry c e).freeCount = s.freeCount ∧ (s.replaceEntry c e).pending = s.pending := by
  simp [State.replaceEntry]

@[simp] theorem State.performRelease_frame (s : State) (k : Key) (t : Owner) (q : BitVec 32) :
    (s.performRelease k t q).clock = s.clock ∧ (s.performRelease k t q).linkT = s.linkT ∧
    (s.performRelease k t q).linkC = s.linkC ∧ (s.performRelease k t q).linkS = s.linkS ∧
    (s.performRelease k t q).intake = s.intake ∧ (s.performRelease k t q).tracker = s.tracker ∧
    (s.performRelease k t q).detectors = s.detectors ∧ (s.performRelease k t q).speed = s.speed ∧
    (s.performRelease k t q).stallTimer = s.stallTimer ∧ (s.performRelease k t q).startupTimer = s.startupTimer ∧
    (s.performRelease k t q).session = s.session ∧ (s.performRelease k t q).shaping = s.shaping ∧
    (s.performRelease k t q).expressionDeadline = s.expressionDeadline ∧ (s.performRelease k t q).struckKeys = s.struckKeys ∧
    (s.performRelease k t q).console = s.console ∧ (s.performRelease k t q).calibration = s.calibration ∧
    (s.performRelease k t q).timing = s.timing ∧ (s.performRelease k t q).nextSeq = s.nextSeq ∧
    (s.performRelease k t q).slots = s.slots ∧ (s.performRelease k t q).strikes = s.strikes ∧
    (s.performRelease k t q).pedals = s.pedals ∧ (s.performRelease k t q).drive = s.drive ∧
    (s.performRelease k t q).frameDeadline = s.frameDeadline ∧ (s.performRelease k t q).thermalDeadline = s.thermalDeadline ∧
    (s.performRelease k t q).freeCount = s.freeCount ∧ (s.performRelease k t q).pending = s.pending := by
  generalize h : s.performRelease k t q = t; unfold State.performRelease at h; (repeat' split at h) <;> (subst h; simp)

@[simp] theorem State.performTakeover_frame (s : State) (k : Key) (t : Owner) (q : BitVec 32) :
    (s.performTakeover k t q).clock = s.clock ∧ (s.performTakeover k t q).linkT = s.linkT ∧
    (s.performTakeover k t q).linkC = s.linkC ∧ (s.performTakeover k t q).linkS = s.linkS ∧
    (s.performTakeover k t q).intake = s.intake ∧ (s.performTakeover k t q).tracker = s.tracker ∧
    (s.performTakeover k t q).detectors = s.detectors ∧ (s.performTakeover k t q).speed = s.speed ∧
    (s.performTakeover k t q).stallTimer = s.stallTimer ∧ (s.performTakeover k t q).startupTimer = s.startupTimer ∧
    (s.performTakeover k t q).session = s.session ∧ (s.performTakeover k t q).shaping = s.shaping ∧
    (s.performTakeover k t q).expressionDeadline = s.expressionDeadline ∧
    (s.performTakeover k t q).struckKeys = s.struckKeys ∧ (s.performTakeover k t q).console = s.console ∧
    (s.performTakeover k t q).calibration = s.calibration ∧ (s.performTakeover k t q).timing = s.timing ∧
    (s.performTakeover k t q).nextSeq = s.nextSeq ∧ (s.performTakeover k t q).slots = s.slots ∧
    (s.performTakeover k t q).strikes = s.strikes ∧ (s.performTakeover k t q).pedals = s.pedals ∧
    (s.performTakeover k t q).drive = s.drive ∧ (s.performTakeover k t q).frameDeadline = s.frameDeadline ∧
    (s.performTakeover k t q).thermalDeadline = s.thermalDeadline ∧ (s.performTakeover k t q).freeCount = s.freeCount ∧
    (s.performTakeover k t q).pending = s.pending := by
  simp [State.performTakeover]

@[simp] theorem State.performEnd_frame (s : State) :
    (s.performEnd).clock = s.clock ∧ (s.performEnd).tracker = s.tracker ∧ (s.performEnd).detectors = s.detectors ∧
    (s.performEnd).expressionDeadline = s.expressionDeadline ∧ (s.performEnd).console = s.console ∧
    (s.performEnd).calibration = s.calibration ∧ (s.performEnd).timing = s.timing ∧ (s.performEnd).nextSeq = s.nextSeq ∧
    (s.performEnd).drive = s.drive ∧ (s.performEnd).frameDeadline = s.frameDeadline ∧
    (s.performEnd).thermalDeadline = s.thermalDeadline ∧ (s.performEnd).freeCount = s.freeCount ∧
    (s.performEnd).pending = s.pending := by
  generalize h : s.performEnd = t; unfold State.performEnd at h; (repeat' split at h) <;> (subst h; simp)

@[simp] theorem State.perform_frame (s : State) (a : Action) (q : BitVec 32) :
    (s.perform a q).clock = s.clock ∧ (s.perform a q).tracker = s.tracker ∧ (s.perform a q).detectors = s.detectors ∧
    (s.perform a q).expressionDeadline = s.expressionDeadline ∧ (s.perform a q).console = s.console ∧
    (s.perform a q).calibration = s.calibration ∧ (s.perform a q).timing = s.timing ∧ (s.perform a q).nextSeq = s.nextSeq ∧
    (s.perform a q).drive = s.drive ∧ (s.perform a q).frameDeadline = s.frameDeadline ∧
    (s.perform a q).thermalDeadline = s.thermalDeadline ∧ (s.perform a q).freeCount = s.freeCount ∧
    (s.perform a q).pending = s.pending := by
  generalize h : s.perform a q = t; unfold State.perform at h; (repeat' split at h) <;> (subst h; simp)

@[simp] theorem State.insertStrike_frame (s : State) (d : Time) (st : Strike) :
    (s.insertStrike d st).clock = s.clock ∧ (s.insertStrike d st).intake = s.intake ∧
    (s.insertStrike d st).tracker = s.tracker ∧ (s.insertStrike d st).detectors = s.detectors ∧
    (s.insertStrike d st).speed = s.speed ∧ (s.insertStrike d st).stallTimer = s.stallTimer ∧
    (s.insertStrike d st).startupTimer = s.startupTimer ∧ (s.insertStrike d st).session = s.session ∧
    (s.insertStrike d st).shaping = s.shaping ∧ (s.insertStrike d st).expressionDeadline = s.expressionDeadline ∧
    (s.insertStrike d st).struckKeys = s.struckKeys ∧ (s.insertStrike d st).console = s.console ∧
    (s.insertStrike d st).calibration = s.calibration ∧ (s.insertStrike d st).timing = s.timing ∧
    (s.insertStrike d st).slots = s.slots ∧ (s.insertStrike d st).pedals = s.pedals ∧ (s.insertStrike d st).drive = s.drive ∧
    (s.insertStrike d st).frameDeadline = s.frameDeadline ∧ (s.insertStrike d st).thermalDeadline = s.thermalDeadline ∧
    (s.insertStrike d st).freeCount = s.freeCount ∧ (s.insertStrike d st).pending = s.pending := by
  generalize h : s.insertStrike d st = t; unfold State.insertStrike at h; dsimp only at h; (repeat' split at h) <;> (subst h; simp)

@[simp] theorem State.insertOther_frame (s : State) (d : Time) (a : Action) :
    (s.insertOther d a).clock = s.clock ∧ (s.insertOther d a).tracker = s.tracker ∧
    (s.insertOther d a).detectors = s.detectors ∧ (s.insertOther d a).expressionDeadline = s.expressionDeadline ∧
    (s.insertOther d a).console = s.console ∧ (s.insertOther d a).calibration = s.calibration ∧
    (s.insertOther d a).timing = s.timing ∧ (s.insertOther d a).drive = s.drive ∧
    (s.insertOther d a).frameDeadline = s.frameDeadline ∧ (s.insertOther d a).thermalDeadline = s.thermalDeadline ∧
    (s.insertOther d a).freeCount = s.freeCount ∧ (s.insertOther d a).pending = s.pending := by
  generalize h : s.insertOther d a = t; unfold State.insertOther at h; dsimp only at h; (repeat' split at h) <;> (subst h; simp)

@[simp] theorem State.insertTakeover_frame (s : State) (d : Time) (k : Key) (t : Owner) :
    (s.insertOther d (.takeover k t)).clock = s.clock ∧ (s.insertOther d (.takeover k t)).intake = s.intake ∧
    (s.insertOther d (.takeover k t)).tracker = s.tracker ∧ (s.insertOther d (.takeover k t)).detectors = s.detectors ∧
    (s.insertOther d (.takeover k t)).speed = s.speed ∧ (s.insertOther d (.takeover k t)).stallTimer = s.stallTimer ∧
    (s.insertOther d (.takeover k t)).startupTimer = s.startupTimer ∧ (s.insertOther d (.takeover k t)).session = s.session ∧
    (s.insertOther d (.takeover k t)).shaping = s.shaping ∧
    (s.insertOther d (.takeover k t)).expressionDeadline = s.expressionDeadline ∧
    (s.insertOther d (.takeover k t)).struckKeys = s.struckKeys ∧ (s.insertOther d (.takeover k t)).console = s.console ∧
    (s.insertOther d (.takeover k t)).calibration = s.calibration ∧ (s.insertOther d (.takeover k t)).timing = s.timing ∧
    (s.insertOther d (.takeover k t)).slots = s.slots ∧ (s.insertOther d (.takeover k t)).pedals = s.pedals ∧
    (s.insertOther d (.takeover k t)).drive = s.drive ∧ (s.insertOther d (.takeover k t)).frameDeadline = s.frameDeadline ∧
    (s.insertOther d (.takeover k t)).thermalDeadline = s.thermalDeadline ∧
    (s.insertOther d (.takeover k t)).freeCount = s.freeCount ∧ (s.insertOther d (.takeover k t)).pending = s.pending := by
  generalize h : s.insertOther d (.takeover k t) = t; unfold State.insertOther at h; dsimp only at h; (repeat' split at h) <;> (subst h; simp [State.perform])

@[simp] theorem State.makeRoom_frame (s : State) :
    (s.makeRoom).clock = s.clock ∧ (s.makeRoom).intake = s.intake ∧
    (s.makeRoom).tracker = s.tracker ∧ (s.makeRoom).detectors = s.detectors ∧
    (s.makeRoom).speed = s.speed ∧ (s.makeRoom).stallTimer = s.stallTimer ∧
    (s.makeRoom).startupTimer = s.startupTimer ∧ (s.makeRoom).session = s.session ∧
    (s.makeRoom).shaping = s.shaping ∧ (s.makeRoom).expressionDeadline = s.expressionDeadline ∧
    (s.makeRoom).struckKeys = s.struckKeys ∧ (s.makeRoom).console = s.console ∧
    (s.makeRoom).calibration = s.calibration ∧ (s.makeRoom).timing = s.timing ∧
    (s.makeRoom).nextSeq = s.nextSeq ∧ (s.makeRoom).slots = s.slots ∧
    (s.makeRoom).pedals = s.pedals ∧ (s.makeRoom).drive = s.drive ∧
    (s.makeRoom).frameDeadline = s.frameDeadline ∧ (s.makeRoom).thermalDeadline = s.thermalDeadline ∧
    (s.makeRoom).freeCount = s.freeCount ∧ (s.makeRoom).pending = s.pending := by
  generalize h : s.makeRoom = t; unfold State.makeRoom at h; (repeat' split at h) <;> (subst h; simp)

@[simp] theorem State.insertPerformed_frame (s : State) (k : Key) (t : Owner) :
    (s.insertPerformed (.takeover k t)).clock = s.clock ∧ (s.insertPerformed (.takeover k t)).intake = s.intake ∧
    (s.insertPerformed (.takeover k t)).tracker = s.tracker ∧ (s.insertPerformed (.takeover k t)).detectors = s.detectors ∧
    (s.insertPerformed (.takeover k t)).speed = s.speed ∧ (s.insertPerformed (.takeover k t)).stallTimer = s.stallTimer ∧
    (s.insertPerformed (.takeover k t)).startupTimer = s.startupTimer ∧ (s.insertPerformed (.takeover k t)).session = s.session ∧
    (s.insertPerformed (.takeover k t)).shaping = s.shaping ∧
    (s.insertPerformed (.takeover k t)).expressionDeadline = s.expressionDeadline ∧
    (s.insertPerformed (.takeover k t)).struckKeys = s.struckKeys ∧ (s.insertPerformed (.takeover k t)).console = s.console ∧
    (s.insertPerformed (.takeover k t)).calibration = s.calibration ∧ (s.insertPerformed (.takeover k t)).timing = s.timing ∧
    (s.insertPerformed (.takeover k t)).slots = s.slots ∧ (s.insertPerformed (.takeover k t)).pedals = s.pedals ∧
    (s.insertPerformed (.takeover k t)).drive = s.drive ∧ (s.insertPerformed (.takeover k t)).frameDeadline = s.frameDeadline ∧
    (s.insertPerformed (.takeover k t)).thermalDeadline = s.thermalDeadline ∧
    (s.insertPerformed (.takeover k t)).freeCount = s.freeCount ∧ (s.insertPerformed (.takeover k t)).pending = s.pending := by
  simp [State.insertPerformed, State.perform]

@[simp] theorem State.insertRelease_frame (s : State) (d : Time) (k : Key) (t : Owner) :
    (s.insertOther d (.release k t)).clock = s.clock ∧ (s.insertOther d (.release k t)).intake = s.intake ∧
    (s.insertOther d (.release k t)).tracker = s.tracker ∧ (s.insertOther d (.release k t)).detectors = s.detectors ∧
    (s.insertOther d (.release k t)).speed = s.speed ∧ (s.insertOther d (.release k t)).stallTimer = s.stallTimer ∧
    (s.insertOther d (.release k t)).startupTimer = s.startupTimer ∧ (s.insertOther d (.release k t)).session = s.session ∧
    (s.insertOther d (.release k t)).shaping = s.shaping ∧
    (s.insertOther d (.release k t)).expressionDeadline = s.expressionDeadline ∧
    (s.insertOther d (.release k t)).struckKeys = s.struckKeys ∧ (s.insertOther d (.release k t)).console = s.console ∧
    (s.insertOther d (.release k t)).calibration = s.calibration ∧ (s.insertOther d (.release k t)).timing = s.timing ∧
    (s.insertOther d (.release k t)).slots = s.slots ∧ (s.insertOther d (.release k t)).pedals = s.pedals ∧
    (s.insertOther d (.release k t)).drive = s.drive ∧ (s.insertOther d (.release k t)).frameDeadline = s.frameDeadline ∧
    (s.insertOther d (.release k t)).thermalDeadline = s.thermalDeadline ∧
    (s.insertOther d (.release k t)).freeCount = s.freeCount ∧ (s.insertOther d (.release k t)).pending = s.pending := by
  generalize h : s.insertOther d (.release k t) = t; unfold State.insertOther at h; dsimp only at h; (repeat' split at h) <;> (subst h; simp [State.perform])

@[simp] theorem State.insertPedal_frame (s : State) (d : Time) (p : Pedal) (v : Nat) :
    (s.insertOther d (.pedal p v)).clock = s.clock ∧ (s.insertOther d (.pedal p v)).intake = s.intake ∧
    (s.insertOther d (.pedal p v)).tracker = s.tracker ∧ (s.insertOther d (.pedal p v)).detectors = s.detectors ∧
    (s.insertOther d (.pedal p v)).speed = s.speed ∧ (s.insertOther d (.pedal p v)).stallTimer = s.stallTimer ∧
    (s.insertOther d (.pedal p v)).startupTimer = s.startupTimer ∧ (s.insertOther d (.pedal p v)).session = s.session ∧
    (s.insertOther d (.pedal p v)).expressionDeadline = s.expressionDeadline ∧
    (s.insertOther d (.pedal p v)).struckKeys = s.struckKeys ∧ (s.insertOther d (.pedal p v)).console = s.console ∧
    (s.insertOther d (.pedal p v)).calibration = s.calibration ∧ (s.insertOther d (.pedal p v)).timing = s.timing ∧
    (s.insertOther d (.pedal p v)).slots = s.slots ∧ (s.insertOther d (.pedal p v)).drive = s.drive ∧
    (s.insertOther d (.pedal p v)).frameDeadline = s.frameDeadline ∧
    (s.insertOther d (.pedal p v)).thermalDeadline = s.thermalDeadline ∧
    (s.insertOther d (.pedal p v)).freeCount = s.freeCount ∧ (s.insertOther d (.pedal p v)).pending = s.pending := by
  generalize h : s.insertOther d (.pedal p v) = t; unfold State.insertOther at h; dsimp only at h; (repeat' split at h) <;> (subst h; simp [State.perform])

@[simp] theorem State.performNext_frame (s : State) (kind : Action → Bool) :
    (s.performNext kind).clock = s.clock ∧ (s.performNext kind).tracker = s.tracker ∧
    (s.performNext kind).detectors = s.detectors ∧ (s.performNext kind).expressionDeadline = s.expressionDeadline ∧
    (s.performNext kind).console = s.console ∧ (s.performNext kind).calibration = s.calibration ∧
    (s.performNext kind).timing = s.timing ∧ (s.performNext kind).nextSeq = s.nextSeq ∧
    (s.performNext kind).drive = s.drive ∧ (s.performNext kind).frameDeadline = s.frameDeadline ∧
    (s.performNext kind).thermalDeadline = s.thermalDeadline ∧ (s.performNext kind).freeCount = s.freeCount ∧
    (s.performNext kind).pending = s.pending := by
  generalize h : s.performNext kind = t; unfold State.performNext at h; (repeat' split at h) <;> (subst h; simp)

@[simp] theorem State.grant_frame (s : State) :
    (s.grant).clock = s.clock ∧ (s.grant).intake = s.intake ∧ (s.grant).tracker = s.tracker ∧
    (s.grant).detectors = s.detectors ∧ (s.grant).speed = s.speed ∧ (s.grant).stallTimer = s.stallTimer ∧
    (s.grant).startupTimer = s.startupTimer ∧ (s.grant).session = s.session ∧ (s.grant).shaping = s.shaping ∧
    (s.grant).expressionDeadline = s.expressionDeadline ∧ (s.grant).struckKeys = s.struckKeys ∧
    (s.grant).console = s.console ∧ (s.grant).calibration = s.calibration ∧ (s.grant).timing = s.timing ∧
    (s.grant).nextSeq = s.nextSeq ∧ (s.grant).pedals = s.pedals ∧ (s.grant).drive = s.drive ∧
    (s.grant).frameDeadline = s.frameDeadline ∧ (s.grant).thermalDeadline = s.thermalDeadline ∧
    (s.grant).freeCount = s.freeCount ∧ (s.grant).pending = s.pending := by
  generalize h : s.grant = t; unfold State.grant at h; (repeat' split at h) <;> (subst h; simp)

@[simp] theorem State.takeOver_frame (s : State) (k : Key) (n : NoteTrack) (d : Time) (g : Nat) :
    (s.takeOver k n d g).clock = s.clock ∧ (s.takeOver k n d g).intake = s.intake ∧
    (s.takeOver k n d g).tracker = s.tracker ∧ (s.takeOver k n d g).detectors = s.detectors ∧
    (s.takeOver k n d g).speed = s.speed ∧ (s.takeOver k n d g).stallTimer = s.stallTimer ∧
    (s.takeOver k n d g).startupTimer = s.startupTimer ∧ (s.takeOver k n d g).session = s.session ∧
    (s.takeOver k n d g).shaping = s.shaping ∧ (s.takeOver k n d g).expressionDeadline = s.expressionDeadline ∧
    (s.takeOver k n d g).struckKeys = s.struckKeys ∧ (s.takeOver k n d g).console = s.console ∧
    (s.takeOver k n d g).calibration = s.calibration ∧ (s.takeOver k n d g).timing = s.timing ∧
    (s.takeOver k n d g).slots = s.slots ∧ (s.takeOver k n d g).pedals = s.pedals ∧ (s.takeOver k n d g).drive = s.drive ∧
    (s.takeOver k n d g).frameDeadline = s.frameDeadline ∧ (s.takeOver k n d g).thermalDeadline = s.thermalDeadline ∧
    (s.takeOver k n d g).freeCount = s.freeCount ∧ (s.takeOver k n d g).pending = s.pending := by
  generalize h : s.takeOver k n d g = t; unfold State.takeOver at h; (repeat' split at h) <;> (subst h; simp)

@[simp] theorem State.scheduleOnset_frame (s : State) (t : Timing) (c : Console) (n : NoteTrack) (o : Time) :
    (s.scheduleOnset t c n o).clock = s.clock ∧ (s.scheduleOnset t c n o).intake = s.intake ∧
    (s.scheduleOnset t c n o).tracker = s.tracker ∧ (s.scheduleOnset t c n o).detectors = s.detectors ∧
    (s.scheduleOnset t c n o).speed = s.speed ∧ (s.scheduleOnset t c n o).stallTimer = s.stallTimer ∧
    (s.scheduleOnset t c n o).startupTimer = s.startupTimer ∧ (s.scheduleOnset t c n o).session = s.session ∧
    (s.scheduleOnset t c n o).shaping = s.shaping ∧ (s.scheduleOnset t c n o).expressionDeadline = s.expressionDeadline ∧
    (s.scheduleOnset t c n o).console = s.console ∧ (s.scheduleOnset t c n o).calibration = s.calibration ∧
    (s.scheduleOnset t c n o).timing = s.timing ∧ (s.scheduleOnset t c n o).slots = s.slots ∧
    (s.scheduleOnset t c n o).pedals = s.pedals ∧ (s.scheduleOnset t c n o).drive = s.drive ∧
    (s.scheduleOnset t c n o).frameDeadline = s.frameDeadline ∧
    (s.scheduleOnset t c n o).thermalDeadline = s.thermalDeadline ∧ (s.scheduleOnset t c n o).freeCount = s.freeCount ∧
    (s.scheduleOnset t c n o).pending = s.pending := by
  simp [State.scheduleOnset]

@[simp] theorem State.noteOnset_frame (s : State) (t : Timing) (c : Console) (n : NoteTrack) (o : Time) :
    (s.noteOnset t c n o).clock = s.clock ∧ (s.noteOnset t c n o).intake = s.intake ∧
    (s.noteOnset t c n o).tracker = s.tracker ∧ (s.noteOnset t c n o).detectors = s.detectors ∧
    (s.noteOnset t c n o).speed = s.speed ∧ (s.noteOnset t c n o).stallTimer = s.stallTimer ∧
    (s.noteOnset t c n o).startupTimer = s.startupTimer ∧ (s.noteOnset t c n o).session = s.session ∧
    (s.noteOnset t c n o).shaping = s.shaping ∧ (s.noteOnset t c n o).expressionDeadline = s.expressionDeadline ∧
    (s.noteOnset t c n o).console = s.console ∧ (s.noteOnset t c n o).calibration = s.calibration ∧
    (s.noteOnset t c n o).timing = s.timing ∧ (s.noteOnset t c n o).slots = s.slots ∧
    (s.noteOnset t c n o).pedals = s.pedals ∧ (s.noteOnset t c n o).drive = s.drive ∧
    (s.noteOnset t c n o).frameDeadline = s.frameDeadline ∧ (s.noteOnset t c n o).thermalDeadline = s.thermalDeadline ∧
    (s.noteOnset t c n o).freeCount = s.freeCount ∧ (s.noteOnset t c n o).pending = s.pending := by
  generalize h : s.noteOnset t c n o = t; unfold State.noteOnset at h; (repeat' split at h) <;> (subst h; simp)

@[simp] theorem State.noteOffset_frame (s : State) (t : Timing) (n : NoteTrack) (o : Time) :
    (s.noteOffset t n o).clock = s.clock ∧ (s.noteOffset t n o).intake = s.intake ∧
    (s.noteOffset t n o).tracker = s.tracker ∧ (s.noteOffset t n o).detectors = s.detectors ∧
    (s.noteOffset t n o).speed = s.speed ∧ (s.noteOffset t n o).stallTimer = s.stallTimer ∧
    (s.noteOffset t n o).startupTimer = s.startupTimer ∧ (s.noteOffset t n o).session = s.session ∧
    (s.noteOffset t n o).shaping = s.shaping ∧ (s.noteOffset t n o).expressionDeadline = s.expressionDeadline ∧
    (s.noteOffset t n o).console = s.console ∧ (s.noteOffset t n o).calibration = s.calibration ∧
    (s.noteOffset t n o).timing = s.timing ∧ (s.noteOffset t n o).slots = s.slots ∧ (s.noteOffset t n o).pedals = s.pedals ∧
    (s.noteOffset t n o).drive = s.drive ∧ (s.noteOffset t n o).frameDeadline = s.frameDeadline ∧
    (s.noteOffset t n o).thermalDeadline = s.thermalDeadline ∧ (s.noteOffset t n o).freeCount = s.freeCount ∧
    (s.noteOffset t n o).pending = s.pending := by
  generalize h : s.noteOffset t n o = t; unfold State.noteOffset at h; dsimp only at h; (repeat' split at h) <;> (subst h; simp)

@[simp] theorem State.pedalChange_frame (s : State) (t : Timing) (p : Pedal) (b : Bool) (c : Time) :
    (s.pedalChange t p b c).clock = s.clock ∧ (s.pedalChange t p b c).intake = s.intake ∧
    (s.pedalChange t p b c).tracker = s.tracker ∧ (s.pedalChange t p b c).detectors = s.detectors ∧
    (s.pedalChange t p b c).speed = s.speed ∧ (s.pedalChange t p b c).stallTimer = s.stallTimer ∧
    (s.pedalChange t p b c).startupTimer = s.startupTimer ∧ (s.pedalChange t p b c).session = s.session ∧
    (s.pedalChange t p b c).expressionDeadline = s.expressionDeadline ∧ (s.pedalChange t p b c).struckKeys = s.struckKeys ∧
    (s.pedalChange t p b c).console = s.console ∧ (s.pedalChange t p b c).calibration = s.calibration ∧
    (s.pedalChange t p b c).timing = s.timing ∧ (s.pedalChange t p b c).slots = s.slots ∧
    (s.pedalChange t p b c).drive = s.drive ∧ (s.pedalChange t p b c).frameDeadline = s.frameDeadline ∧
    (s.pedalChange t p b c).thermalDeadline = s.thermalDeadline ∧ (s.pedalChange t p b c).freeCount = s.freeCount ∧
    (s.pedalChange t p b c).pending = s.pending := by
  generalize h : s.pedalChange t p b c = t; unfold State.pedalChange at h; (repeat' split at h) <;> (subst h; simp)

@[simp] theorem State.restrikeTrack_frame (s : State) (n : NoteTrack) :
    (s.restrikeTrack n).clock = s.clock ∧ (s.restrikeTrack n).intake = s.intake ∧ (s.restrikeTrack n).tracker = s.tracker ∧
    (s.restrikeTrack n).detectors = s.detectors ∧ (s.restrikeTrack n).speed = s.speed ∧
    (s.restrikeTrack n).stallTimer = s.stallTimer ∧ (s.restrikeTrack n).startupTimer = s.startupTimer ∧
    (s.restrikeTrack n).session = s.session ∧ (s.restrikeTrack n).shaping = s.shaping ∧
    (s.restrikeTrack n).expressionDeadline = s.expressionDeadline ∧ (s.restrikeTrack n).console = s.console ∧
    (s.restrikeTrack n).calibration = s.calibration ∧ (s.restrikeTrack n).timing = s.timing ∧
    (s.restrikeTrack n).slots = s.slots ∧ (s.restrikeTrack n).pedals = s.pedals ∧ (s.restrikeTrack n).drive = s.drive ∧
    (s.restrikeTrack n).frameDeadline = s.frameDeadline ∧ (s.restrikeTrack n).thermalDeadline = s.thermalDeadline ∧
    (s.restrikeTrack n).freeCount = s.freeCount ∧ (s.restrikeTrack n).pending = s.pending := by
  generalize h : s.restrikeTrack n = t; unfold State.restrikeTrack at h; (repeat' split at h) <;> (subst h; simp)

end Sys2Proof.Machine
end

