-- ==== Sys2Proof/Laws/Frames.lean ====
section
/-! SUPPORT. Frame laws of the decoding path, the notes, the roll and the requests' effects: the fields each leaves as they
stand. -/

namespace Sys2Proof.Machine

@[simp] theorem State.foldlRestrike_frame (s : State) (l : List NoteTrack) :
    (l.foldl State.restrikeTrack s).clock = s.clock ∧ (l.foldl State.restrikeTrack s).intake = s.intake ∧
    (l.foldl State.restrikeTrack s).tracker = s.tracker ∧ (l.foldl State.restrikeTrack s).detectors = s.detectors ∧
    (l.foldl State.restrikeTrack s).speed = s.speed ∧ (l.foldl State.restrikeTrack s).stallTimer = s.stallTimer ∧
    (l.foldl State.restrikeTrack s).startupTimer = s.startupTimer ∧ (l.foldl State.restrikeTrack s).session = s.session ∧
    (l.foldl State.restrikeTrack s).shaping = s.shaping ∧
    (l.foldl State.restrikeTrack s).expressionDeadline = s.expressionDeadline ∧
    (l.foldl State.restrikeTrack s).console = s.console ∧ (l.foldl State.restrikeTrack s).calibration = s.calibration ∧
    (l.foldl State.restrikeTrack s).timing = s.timing ∧ (l.foldl State.restrikeTrack s).slots = s.slots ∧
    (l.foldl State.restrikeTrack s).pedals = s.pedals ∧ (l.foldl State.restrikeTrack s).drive = s.drive ∧
    (l.foldl State.restrikeTrack s).frameDeadline = s.frameDeadline ∧
    (l.foldl State.restrikeTrack s).thermalDeadline = s.thermalDeadline ∧
    (l.foldl State.restrikeTrack s).freeCount = s.freeCount ∧ (l.foldl State.restrikeTrack s).pending = s.pending := by
  induction l generalizing s with
  | nil => simp
  | cons n l ih => simp [ih]

@[simp] theorem State.restrike_frame (s : State) :
    (s.restrike).clock = s.clock ∧ (s.restrike).intake = s.intake ∧ (s.restrike).tracker = s.tracker ∧
    (s.restrike).detectors = s.detectors ∧ (s.restrike).speed = s.speed ∧ (s.restrike).stallTimer = s.stallTimer ∧
    (s.restrike).startupTimer = s.startupTimer ∧ (s.restrike).session = s.session ∧ (s.restrike).shaping = s.shaping ∧
    (s.restrike).expressionDeadline = s.expressionDeadline ∧ (s.restrike).console = s.console ∧
    (s.restrike).calibration = s.calibration ∧ (s.restrike).timing = s.timing ∧ (s.restrike).slots = s.slots ∧
    (s.restrike).pedals = s.pedals ∧ (s.restrike).drive = s.drive ∧ (s.restrike).frameDeadline = s.frameDeadline ∧
    (s.restrike).thermalDeadline = s.thermalDeadline ∧ (s.restrike).freeCount = s.freeCount ∧ (s.restrike).pending = s.pending := by
  simp [State.restrike]

@[simp] theorem State.loadRollPedals_frame (s : State) :
    (s.loadRollPedals).clock = s.clock ∧ (s.loadRollPedals).linkT = s.linkT ∧ (s.loadRollPedals).linkC = s.linkC ∧
    (s.loadRollPedals).linkS = s.linkS ∧ (s.loadRollPedals).intake = s.intake ∧ (s.loadRollPedals).tracker = s.tracker ∧
    (s.loadRollPedals).detectors = s.detectors ∧ (s.loadRollPedals).speed = s.speed ∧
    (s.loadRollPedals).stallTimer = s.stallTimer ∧ (s.loadRollPedals).startupTimer = s.startupTimer ∧
    (s.loadRollPedals).session = s.session ∧ (s.loadRollPedals).expressionDeadline = s.expressionDeadline ∧
    (s.loadRollPedals).struckKeys = s.struckKeys ∧ (s.loadRollPedals).console = s.console ∧
    (s.loadRollPedals).calibration = s.calibration ∧ (s.loadRollPedals).timing = s.timing ∧
    (s.loadRollPedals).queue = s.queue ∧ (s.loadRollPedals).nextSeq = s.nextSeq ∧ (s.loadRollPedals).slots = s.slots ∧
    (s.loadRollPedals).keys = s.keys ∧ (s.loadRollPedals).strikes = s.strikes ∧ (s.loadRollPedals).drive = s.drive ∧
    (s.loadRollPedals).frameDeadline = s.frameDeadline ∧ (s.loadRollPedals).thermalDeadline = s.thermalDeadline ∧
    (s.loadRollPedals).freeCount = s.freeCount ∧ (s.loadRollPedals).pending = s.pending := by
  simp [State.loadRollPedals]

@[simp] theorem State.lock_frame (s : State) :
    (s.lock).clock = s.clock ∧ (s.lock).intake = s.intake ∧ (s.lock).tracker = s.tracker ∧ (s.lock).detectors = s.detectors ∧
    (s.lock).expressionDeadline = s.expressionDeadline ∧ (s.lock).console = s.console ∧
    (s.lock).calibration = s.calibration ∧ (s.lock).timing = s.timing ∧ (s.lock).slots = s.slots ∧ (s.lock).drive = s.drive ∧
    (s.lock).frameDeadline = s.frameDeadline ∧ (s.lock).thermalDeadline = s.thermalDeadline ∧
    (s.lock).freeCount = s.freeCount ∧ (s.lock).pending = s.pending := by
  simp [State.lock]

@[simp] theorem State.judgeStarting_frame (s : State) (g : Bool) :
    (s.judgeStarting g).clock = s.clock ∧ (s.judgeStarting g).intake = s.intake ∧ (s.judgeStarting g).tracker = s.tracker ∧
    (s.judgeStarting g).detectors = s.detectors ∧ (s.judgeStarting g).expressionDeadline = s.expressionDeadline ∧
    (s.judgeStarting g).console = s.console ∧ (s.judgeStarting g).calibration = s.calibration ∧
    (s.judgeStarting g).timing = s.timing ∧ (s.judgeStarting g).slots = s.slots ∧ (s.judgeStarting g).drive = s.drive ∧
    (s.judgeStarting g).frameDeadline = s.frameDeadline ∧ (s.judgeStarting g).thermalDeadline = s.thermalDeadline ∧
    (s.judgeStarting g).freeCount = s.freeCount ∧ (s.judgeStarting g).pending = s.pending := by
  generalize h : s.judgeStarting g = t; unfold State.judgeStarting at h; dsimp only at h; (repeat' split at h) <;> (subst h; simp)

@[simp] theorem State.judgePlaying_frame (s : State) (g : Bool) :
    (s.judgePlaying g).clock = s.clock ∧ (s.judgePlaying g).intake = s.intake ∧ (s.judgePlaying g).tracker = s.tracker ∧
    (s.judgePlaying g).detectors = s.detectors ∧ (s.judgePlaying g).stallTimer = s.stallTimer ∧
    (s.judgePlaying g).startupTimer = s.startupTimer ∧ (s.judgePlaying g).session = s.session ∧
    (s.judgePlaying g).shaping = s.shaping ∧ (s.judgePlaying g).expressionDeadline = s.expressionDeadline ∧
    (s.judgePlaying g).struckKeys = s.struckKeys ∧ (s.judgePlaying g).console = s.console ∧
    (s.judgePlaying g).calibration = s.calibration ∧ (s.judgePlaying g).timing = s.timing ∧
    (s.judgePlaying g).queue = s.queue ∧ (s.judgePlaying g).nextSeq = s.nextSeq ∧ (s.judgePlaying g).slots = s.slots ∧
    (s.judgePlaying g).keys = s.keys ∧ (s.judgePlaying g).strikes = s.strikes ∧ (s.judgePlaying g).pedals = s.pedals ∧
    (s.judgePlaying g).drive = s.drive ∧ (s.judgePlaying g).frameDeadline = s.frameDeadline ∧
    (s.judgePlaying g).thermalDeadline = s.thermalDeadline ∧ (s.judgePlaying g).freeCount = s.freeCount ∧
    (s.judgePlaying g).pending = s.pending := by
  generalize h : s.judgePlaying g = t; unfold State.judgePlaying at h; dsimp only at h; (repeat' split at h) <;> (subst h; simp)

@[simp] theorem State.measure_frame (s : State) (k t : Nat) :
    (s.measure k t).clock = s.clock ∧ (s.measure k t).intake = s.intake ∧ (s.measure k t).tracker = s.tracker ∧
    (s.measure k t).detectors = s.detectors ∧ (s.measure k t).expressionDeadline = s.expressionDeadline ∧
    (s.measure k t).console = s.console ∧ (s.measure k t).calibration = s.calibration ∧ (s.measure k t).timing = s.timing ∧
    (s.measure k t).slots = s.slots ∧ (s.measure k t).drive = s.drive ∧ (s.measure k t).frameDeadline = s.frameDeadline ∧
    (s.measure k t).thermalDeadline = s.thermalDeadline ∧ (s.measure k t).freeCount = s.freeCount ∧
    (s.measure k t).pending = s.pending := by
  generalize h : s.measure k t = t; unfold State.measure at h; dsimp only at h; (repeat' split at h) <;> (subst h; simp)

@[simp] theorem State.monitorLine_frame (s : State) (m : Mark) (o : Bool) :
    (s.monitorLine m o).clock = s.clock ∧ (s.monitorLine m o).intake = s.intake ∧ (s.monitorLine m o).tracker = s.tracker ∧
    (s.monitorLine m o).detectors = s.detectors ∧ (s.monitorLine m o).expressionDeadline = s.expressionDeadline ∧
    (s.monitorLine m o).console = s.console ∧ (s.monitorLine m o).calibration = s.calibration ∧
    (s.monitorLine m o).timing = s.timing ∧ (s.monitorLine m o).slots = s.slots ∧ (s.monitorLine m o).drive = s.drive ∧
    (s.monitorLine m o).frameDeadline = s.frameDeadline ∧ (s.monitorLine m o).thermalDeadline = s.thermalDeadline ∧
    (s.monitorLine m o).freeCount = s.freeCount ∧ (s.monitorLine m o).pending = s.pending := by
  generalize h : s.monitorLine m o = t; unfold State.monitorLine at h; dsimp only at h; (repeat' split at h) <;> (subst h; simp)

@[simp] theorem State.watchLine_frame (s : State) :
    (s.watchLine).clock = s.clock ∧ (s.watchLine).tracker = s.tracker ∧ (s.watchLine).detectors = s.detectors ∧
    (s.watchLine).expressionDeadline = s.expressionDeadline ∧ (s.watchLine).console = s.console ∧
    (s.watchLine).calibration = s.calibration ∧ (s.watchLine).timing = s.timing ∧ (s.watchLine).nextSeq = s.nextSeq ∧
    (s.watchLine).drive = s.drive ∧ (s.watchLine).frameDeadline = s.frameDeadline ∧
    (s.watchLine).thermalDeadline = s.thermalDeadline ∧ (s.watchLine).freeCount = s.freeCount ∧
    (s.watchLine).pending = s.pending := by
  generalize h : s.watchLine = t; unfold State.watchLine at h; (repeat' split at h) <;> (subst h; simp)

@[simp] theorem State.setTempo_frame (s : State) (f : Nat) :
    (s.setTempo f).clock = s.clock ∧ (s.setTempo f).linkT = s.linkT ∧ (s.setTempo f).linkC = s.linkC ∧
    (s.setTempo f).linkS = s.linkS ∧ (s.setTempo f).intake = s.intake ∧ (s.setTempo f).tracker = s.tracker ∧
    (s.setTempo f).detectors = s.detectors ∧ (s.setTempo f).stallTimer = s.stallTimer ∧
    (s.setTempo f).startupTimer = s.startupTimer ∧ (s.setTempo f).session = s.session ∧ (s.setTempo f).shaping = s.shaping ∧
    (s.setTempo f).expressionDeadline = s.expressionDeadline ∧ (s.setTempo f).struckKeys = s.struckKeys ∧
    (s.setTempo f).console = s.console ∧ (s.setTempo f).calibration = s.calibration ∧ (s.setTempo f).timing = s.timing ∧
    (s.setTempo f).queue = s.queue ∧ (s.setTempo f).nextSeq = s.nextSeq ∧ (s.setTempo f).slots = s.slots ∧
    (s.setTempo f).keys = s.keys ∧ (s.setTempo f).strikes = s.strikes ∧ (s.setTempo f).pedals = s.pedals ∧
    (s.setTempo f).drive = s.drive ∧ (s.setTempo f).frameDeadline = s.frameDeadline ∧
    (s.setTempo f).thermalDeadline = s.thermalDeadline ∧ (s.setTempo f).freeCount = s.freeCount ∧
    (s.setTempo f).pending = s.pending := by
  generalize h : s.setTempo f = t; unfold State.setTempo at h; dsimp only at h; (repeat' split at h) <;> (subst h; simp)

@[simp] theorem State.beginDecode_frame (s : State) :
    (s.beginDecode).clock = s.clock ∧ (s.beginDecode).linkT = s.linkT ∧ (s.beginDecode).linkC = s.linkC ∧
    (s.beginDecode).linkS = s.linkS ∧ (s.beginDecode).tracker = s.tracker ∧ (s.beginDecode).detectors = s.detectors ∧
    (s.beginDecode).speed = s.speed ∧ (s.beginDecode).stallTimer = s.stallTimer ∧
    (s.beginDecode).startupTimer = s.startupTimer ∧ (s.beginDecode).session = s.session ∧
    (s.beginDecode).shaping = s.shaping ∧ (s.beginDecode).expressionDeadline = s.expressionDeadline ∧
    (s.beginDecode).struckKeys = s.struckKeys ∧ (s.beginDecode).console = s.console ∧
    (s.beginDecode).calibration = s.calibration ∧ (s.beginDecode).timing = s.timing ∧ (s.beginDecode).queue = s.queue ∧
    (s.beginDecode).nextSeq = s.nextSeq ∧ (s.beginDecode).slots = s.slots ∧ (s.beginDecode).keys = s.keys ∧
    (s.beginDecode).strikes = s.strikes ∧ (s.beginDecode).pedals = s.pedals ∧ (s.beginDecode).drive = s.drive ∧
    (s.beginDecode).frameDeadline = s.frameDeadline ∧ (s.beginDecode).thermalDeadline = s.thermalDeadline ∧
    (s.beginDecode).freeCount = s.freeCount ∧ (s.beginDecode).pending = s.pending := by
  generalize h : s.beginDecode = t; unfold State.beginDecode at h; dsimp only at h; (repeat' split at h) <;> (subst h; simp)

@[simp] theorem State.acceptLine_frame (s : State) (c : CarriedLine) (p : Position) (n : Nat) (o : Bool) :
    (s.acceptLine c p n o).clock = s.clock ∧ (s.acceptLine c p n o).tracker = s.tracker ∧
    (s.acceptLine c p n o).detectors = s.detectors ∧ (s.acceptLine c p n o).expressionDeadline = s.expressionDeadline ∧
    (s.acceptLine c p n o).console = s.console ∧ (s.acceptLine c p n o).calibration = s.calibration ∧
    (s.acceptLine c p n o).timing = s.timing ∧ (s.acceptLine c p n o).drive = s.drive ∧
    (s.acceptLine c p n o).frameDeadline = s.frameDeadline ∧ (s.acceptLine c p n o).thermalDeadline = s.thermalDeadline ∧
    (s.acceptLine c p n o).freeCount = s.freeCount ∧ (s.acceptLine c p n o).pending = s.pending := by
  simp [State.acceptLine]

@[simp] theorem State.haltIntake_frame (s : State) :
    (s.haltIntake).clock = s.clock ∧ (s.haltIntake).tracker = s.tracker ∧ (s.haltIntake).detectors = s.detectors ∧
    (s.haltIntake).expressionDeadline = s.expressionDeadline ∧ (s.haltIntake).console = s.console ∧
    (s.haltIntake).calibration = s.calibration ∧ (s.haltIntake).timing = s.timing ∧ (s.haltIntake).nextSeq = s.nextSeq ∧
    (s.haltIntake).drive = s.drive ∧ (s.haltIntake).frameDeadline = s.frameDeadline ∧
    (s.haltIntake).thermalDeadline = s.thermalDeadline ∧ (s.haltIntake).freeCount = s.freeCount ∧
    (s.haltIntake).pending = s.pending := by
  simp [State.haltIntake]

@[simp] theorem State.checkLine_frame (s : State) (c : CarriedLine) :
    (s.checkLine c).clock = s.clock ∧ (s.checkLine c).tracker = s.tracker ∧ (s.checkLine c).detectors = s.detectors ∧
    (s.checkLine c).expressionDeadline = s.expressionDeadline ∧ (s.checkLine c).console = s.console ∧
    (s.checkLine c).calibration = s.calibration ∧ (s.checkLine c).timing = s.timing ∧ (s.checkLine c).drive = s.drive ∧
    (s.checkLine c).frameDeadline = s.frameDeadline ∧ (s.checkLine c).thermalDeadline = s.thermalDeadline ∧
    (s.checkLine c).freeCount = s.freeCount ∧ (s.checkLine c).pending = s.pending := by
  generalize h : s.checkLine c = t; unfold State.checkLine at h; dsimp only at h; (repeat' split at h) <;> (subst h; simp)

@[simp] theorem State.takeLine_frame (s : State) (c : CarriedLine) :
    (s.takeLine c).clock = s.clock ∧ (s.takeLine c).tracker = s.tracker ∧ (s.takeLine c).detectors = s.detectors ∧
    (s.takeLine c).expressionDeadline = s.expressionDeadline ∧ (s.takeLine c).console = s.console ∧
    (s.takeLine c).calibration = s.calibration ∧ (s.takeLine c).timing = s.timing ∧ (s.takeLine c).drive = s.drive ∧
    (s.takeLine c).frameDeadline = s.frameDeadline ∧ (s.takeLine c).thermalDeadline = s.thermalDeadline ∧
    (s.takeLine c).freeCount = s.freeCount ∧ (s.takeLine c).pending = s.pending := by
  generalize h : s.takeLine c = t; unfold State.takeLine at h; (repeat' split at h) <;> (subst h; simp)

@[simp] theorem State.restartIntake_frame (s : State) :
    (s.restartIntake).clock = s.clock ∧ (s.restartIntake).tracker = s.tracker ∧ (s.restartIntake).detectors = s.detectors ∧
    (s.restartIntake).expressionDeadline = s.expressionDeadline ∧ (s.restartIntake).console = s.console ∧
    (s.restartIntake).calibration = s.calibration ∧ (s.restartIntake).timing = s.timing ∧
    (s.restartIntake).nextSeq = s.nextSeq ∧ (s.restartIntake).drive = s.drive ∧
    (s.restartIntake).frameDeadline = s.frameDeadline ∧ (s.restartIntake).thermalDeadline = s.thermalDeadline ∧
    (s.restartIntake).freeCount = s.freeCount ∧ (s.restartIntake).pending = s.pending := by
  generalize h : s.restartIntake = t; unfold State.restartIntake at h; (repeat' split at h) <;> (subst h; simp)

@[simp] theorem State.handNote_frame (s : State) (d : Decode) (b : Bool) (n : NoteTrack) (r : Option HoleReport) :
    (s.handNote d b n r).clock = s.clock ∧ (s.handNote d b n r).intake = s.intake ∧
    (s.handNote d b n r).tracker = s.tracker ∧ (s.handNote d b n r).detectors = s.detectors ∧
    (s.handNote d b n r).speed = s.speed ∧ (s.handNote d b n r).stallTimer = s.stallTimer ∧
    (s.handNote d b n r).startupTimer = s.startupTimer ∧ (s.handNote d b n r).session = s.session ∧
    (s.handNote d b n r).shaping = s.shaping ∧ (s.handNote d b n r).expressionDeadline = s.expressionDeadline ∧
    (s.handNote d b n r).console = s.console ∧ (s.handNote d b n r).calibration = s.calibration ∧
    (s.handNote d b n r).timing = s.timing ∧ (s.handNote d b n r).slots = s.slots ∧ (s.handNote d b n r).pedals = s.pedals ∧
    (s.handNote d b n r).drive = s.drive ∧ (s.handNote d b n r).frameDeadline = s.frameDeadline ∧
    (s.handNote d b n r).thermalDeadline = s.thermalDeadline ∧ (s.handNote d b n r).freeCount = s.freeCount ∧
    (s.handNote d b n r).pending = s.pending := by
  generalize h : s.handNote d b n r = t; unfold State.handNote at h; (repeat' split at h) <;> (subst h; simp)

@[simp] theorem State.handPedal_frame (s : State) (d : Decode) (p : Pedal) (r : Option HoleReport) :
    (s.handPedal d p r).clock = s.clock ∧ (s.handPedal d p r).intake = s.intake ∧ (s.handPedal d p r).tracker = s.tracker ∧
    (s.handPedal d p r).detectors = s.detectors ∧ (s.handPedal d p r).speed = s.speed ∧
    (s.handPedal d p r).stallTimer = s.stallTimer ∧ (s.handPedal d p r).startupTimer = s.startupTimer ∧
    (s.handPedal d p r).session = s.session ∧ (s.handPedal d p r).expressionDeadline = s.expressionDeadline ∧
    (s.handPedal d p r).struckKeys = s.struckKeys ∧ (s.handPedal d p r).console = s.console ∧
    (s.handPedal d p r).calibration = s.calibration ∧ (s.handPedal d p r).timing = s.timing ∧
    (s.handPedal d p r).slots = s.slots ∧ (s.handPedal d p r).drive = s.drive ∧
    (s.handPedal d p r).frameDeadline = s.frameDeadline ∧ (s.handPedal d p r).thermalDeadline = s.thermalDeadline ∧
    (s.handPedal d p r).freeCount = s.freeCount ∧ (s.handPedal d p r).pending = s.pending := by
  generalize h : s.handPedal d p r = t; unfold State.handPedal at h; (repeat' split at h) <;> (subst h; simp)

@[simp] theorem State.handStepCodes_frame (s : State) (x y : Fin 8) :
    (s.handStepCodes x y).clock = s.clock ∧ (s.handStepCodes x y).linkT = s.linkT ∧ (s.handStepCodes x y).linkC = s.linkC ∧
    (s.handStepCodes x y).linkS = s.linkS ∧ (s.handStepCodes x y).intake = s.intake ∧
    (s.handStepCodes x y).tracker = s.tracker ∧ (s.handStepCodes x y).detectors = s.detectors ∧
    (s.handStepCodes x y).speed = s.speed ∧ (s.handStepCodes x y).stallTimer = s.stallTimer ∧
    (s.handStepCodes x y).startupTimer = s.startupTimer ∧ (s.handStepCodes x y).session = s.session ∧
    (s.handStepCodes x y).expressionDeadline = s.expressionDeadline ∧ (s.handStepCodes x y).struckKeys = s.struckKeys ∧
    (s.handStepCodes x y).console = s.console ∧ (s.handStepCodes x y).calibration = s.calibration ∧
    (s.handStepCodes x y).timing = s.timing ∧ (s.handStepCodes x y).queue = s.queue ∧
    (s.handStepCodes x y).nextSeq = s.nextSeq ∧ (s.handStepCodes x y).slots = s.slots ∧ (s.handStepCodes x y).keys = s.keys ∧
    (s.handStepCodes x y).strikes = s.strikes ∧ (s.handStepCodes x y).pedals = s.pedals ∧
    (s.handStepCodes x y).drive = s.drive ∧ (s.handStepCodes x y).frameDeadline = s.frameDeadline ∧
    (s.handStepCodes x y).thermalDeadline = s.thermalDeadline ∧ (s.handStepCodes x y).freeCount = s.freeCount ∧
    (s.handStepCodes x y).pending = s.pending := by
  generalize h : s.handStepCodes x y = t; unfold State.handStepCodes at h; dsimp only at h; (repeat' split at h) <;> (subst h; simp)

@[simp] theorem State.confirmEnd_frame (s : State) (d : Decode) (t : Time) :
    (s.confirmEnd d t).clock = s.clock ∧ (s.confirmEnd d t).tracker = s.tracker ∧
    (s.confirmEnd d t).detectors = s.detectors ∧ (s.confirmEnd d t).expressionDeadline = s.expressionDeadline ∧
    (s.confirmEnd d t).console = s.console ∧ (s.confirmEnd d t).calibration = s.calibration ∧
    (s.confirmEnd d t).timing = s.timing ∧ (s.confirmEnd d t).drive = s.drive ∧
    (s.confirmEnd d t).frameDeadline = s.frameDeadline ∧ (s.confirmEnd d t).thermalDeadline = s.thermalDeadline ∧
    (s.confirmEnd d t).freeCount = s.freeCount ∧ (s.confirmEnd d t).pending = s.pending := by
  generalize h : s.confirmEnd d t = t; unfold State.confirmEnd at h; dsimp only at h; (repeat' split at h) <;> (subst h; simp)

@[simp] theorem State.handTracking_frame (s : State) (r : TrackReport) :
    (s.handTracking r).clock = s.clock ∧ (s.handTracking r).tracker = s.tracker ∧
    (s.handTracking r).detectors = s.detectors ∧ (s.handTracking r).expressionDeadline = s.expressionDeadline ∧
    (s.handTracking r).console = s.console ∧ (s.handTracking r).calibration = s.calibration ∧
    (s.handTracking r).timing = s.timing ∧ (s.handTracking r).nextSeq = s.nextSeq ∧ (s.handTracking r).drive = s.drive ∧
    (s.handTracking r).frameDeadline = s.frameDeadline ∧ (s.handTracking r).thermalDeadline = s.thermalDeadline ∧
    (s.handTracking r).freeCount = s.freeCount ∧ (s.handTracking r).pending = s.pending := by
  generalize h : s.handTracking r = t; unfold State.handTracking at h; (repeat' split at h) <;> (subst h; simp)

@[simp] theorem State.foldlHandNote_frame (s : State) (d : Decode) (b : Bool) (r : NoteTrack → Option HoleReport) (l : List NoteTrack) :
    (l.foldl (fun s n => s.handNote d b n (r n)) s).clock = s.clock ∧
    (l.foldl (fun s n => s.handNote d b n (r n)) s).intake = s.intake ∧
    (l.foldl (fun s n => s.handNote d b n (r n)) s).tracker = s.tracker ∧
    (l.foldl (fun s n => s.handNote d b n (r n)) s).detectors = s.detectors ∧
    (l.foldl (fun s n => s.handNote d b n (r n)) s).speed = s.speed ∧
    (l.foldl (fun s n => s.handNote d b n (r n)) s).stallTimer = s.stallTimer ∧
    (l.foldl (fun s n => s.handNote d b n (r n)) s).startupTimer = s.startupTimer ∧
    (l.foldl (fun s n => s.handNote d b n (r n)) s).session = s.session ∧
    (l.foldl (fun s n => s.handNote d b n (r n)) s).shaping = s.shaping ∧
    (l.foldl (fun s n => s.handNote d b n (r n)) s).expressionDeadline = s.expressionDeadline ∧
    (l.foldl (fun s n => s.handNote d b n (r n)) s).console = s.console ∧
    (l.foldl (fun s n => s.handNote d b n (r n)) s).calibration = s.calibration ∧
    (l.foldl (fun s n => s.handNote d b n (r n)) s).timing = s.timing ∧
    (l.foldl (fun s n => s.handNote d b n (r n)) s).slots = s.slots ∧
    (l.foldl (fun s n => s.handNote d b n (r n)) s).pedals = s.pedals ∧
    (l.foldl (fun s n => s.handNote d b n (r n)) s).drive = s.drive ∧
    (l.foldl (fun s n => s.handNote d b n (r n)) s).frameDeadline = s.frameDeadline ∧
    (l.foldl (fun s n => s.handNote d b n (r n)) s).thermalDeadline = s.thermalDeadline ∧
    (l.foldl (fun s n => s.handNote d b n (r n)) s).freeCount = s.freeCount ∧
    (l.foldl (fun s n => s.handNote d b n (r n)) s).pending = s.pending := by
  induction l generalizing s with
  | nil => simp
  | cons n l ih => simp [ih]

@[simp] theorem State.sampleLine_frame (s : State) (d : Decode) (l : Line) :
    (s.sampleLine d l).clock = s.clock ∧ (s.sampleLine d l).intake = s.intake ∧ (s.sampleLine d l).tracker = s.tracker ∧
    (s.sampleLine d l).speed = s.speed ∧ (s.sampleLine d l).stallTimer = s.stallTimer ∧
    (s.sampleLine d l).startupTimer = s.startupTimer ∧ (s.sampleLine d l).session = s.session ∧
    (s.sampleLine d l).expressionDeadline = s.expressionDeadline ∧ (s.sampleLine d l).console = s.console ∧
    (s.sampleLine d l).calibration = s.calibration ∧ (s.sampleLine d l).timing = s.timing ∧
    (s.sampleLine d l).slots = s.slots ∧ (s.sampleLine d l).drive = s.drive ∧
    (s.sampleLine d l).frameDeadline = s.frameDeadline ∧ (s.sampleLine d l).thermalDeadline = s.thermalDeadline ∧
    (s.sampleLine d l).freeCount = s.freeCount ∧ (s.sampleLine d l).pending = s.pending := by
  simp [State.sampleLine]

@[simp] theorem State.sampleLine_detectors (s : State) (d : Decode) (l : Line) :
    (s.sampleLine d l).detectors = sampleAll s.detectors s.tracker.filter l := by
  simp [State.sampleLine]

@[simp] theorem State.testEnd_frame (s : State) (d : Decode) (l : Line) :
    (s.testEnd d l).clock = s.clock ∧ (s.testEnd d l).tracker = s.tracker ∧ (s.testEnd d l).detectors = s.detectors ∧
    (s.testEnd d l).expressionDeadline = s.expressionDeadline ∧ (s.testEnd d l).console = s.console ∧
    (s.testEnd d l).calibration = s.calibration ∧ (s.testEnd d l).timing = s.timing ∧ (s.testEnd d l).drive = s.drive ∧
    (s.testEnd d l).frameDeadline = s.frameDeadline ∧ (s.testEnd d l).thermalDeadline = s.thermalDeadline ∧
    (s.testEnd d l).freeCount = s.freeCount ∧ (s.testEnd d l).pending = s.pending := by
  generalize h : s.testEnd d l = t; unfold State.testEnd at h; split at h <;> (subst h; simp)

/-- A line with a tracking report: the report before or after groups 1 to 3, and the end mark's test last (R35, R37). -/
theorem State.applyDecode_report (s : State) (d : Decode) (l : Line) (r : TrackReport) (unconfirmed : s.session.endConfirmed = false)
    (report : (s.tracker.judge l).report = some r) :
    s.applyDecode d l =
      (if Config.trackingReportFirst s.freeCount then
        (State.handTracking { s with tracker := (s.tracker.judge l).tracker } r).sampleLine d l
      else (State.sampleLine { s with tracker := (s.tracker.judge l).tracker } d l).handTracking r).testEnd d l := by
  simp [State.applyDecode, unconfirmed, report]

@[simp] theorem State.applyDecode_frame (s : State) (d : Decode) (l : Line) :
    (s.applyDecode d l).clock = s.clock ∧ (s.applyDecode d l).expressionDeadline = s.expressionDeadline ∧
    (s.applyDecode d l).console = s.console ∧ (s.applyDecode d l).calibration = s.calibration ∧
    (s.applyDecode d l).timing = s.timing ∧ (s.applyDecode d l).drive = s.drive ∧
    (s.applyDecode d l).frameDeadline = s.frameDeadline ∧ (s.applyDecode d l).thermalDeadline = s.thermalDeadline ∧
    (s.applyDecode d l).freeCount = s.freeCount ∧ (s.applyDecode d l).pending = s.pending := by
  generalize h : s.applyDecode d l = t; unfold State.applyDecode at h; dsimp only at h; (repeat' split at h) <;> (subst h; simp)

theorem State.decodeElapsed_none {s : State} (free : s.intake.decode = none) : s.decodeElapsed = 0 := by
  simp [State.decodeElapsed, free]

theorem State.decodeElapsed_some {s : State} {d : Decode} (running : s.intake.decode = some d) :
    s.decodeElapsed = elapsed d.begun s.clock := by
  simp [State.decodeElapsed, running]

/-- A running decode has run for no time exactly at the moment it began (R12). -/
theorem State.decodeElapsed_eq_zero {s : State} {d : Decode} (running : s.intake.decode = some d) :
    s.decodeElapsed = 0 ↔ d.begun = s.clock := by
  rw [State.decodeElapsed_some running, elapsed, ← BitVec.toNat_inj (x := d.begun)]
  bv_omega

@[simp] theorem State.completeDecode_frame (s : State) :
    (s.completeDecode).clock = s.clock ∧ (s.completeDecode).expressionDeadline = s.expressionDeadline ∧
    (s.completeDecode).console = s.console ∧ (s.completeDecode).calibration = s.calibration ∧
    (s.completeDecode).timing = s.timing ∧ (s.completeDecode).drive = s.drive ∧
    (s.completeDecode).frameDeadline = s.frameDeadline ∧ (s.completeDecode).thermalDeadline = s.thermalDeadline ∧
    (s.completeDecode).freeCount = s.freeCount ∧ (s.completeDecode).pending = s.pending := by
  generalize h : s.completeDecode = t; unfold State.completeDecode at h; dsimp only at h; (repeat' split at h) <;> (subst h; simp)

@[simp] theorem State.startRoll_frame (s : State) :
    (s.startRoll).clock = s.clock ∧ (s.startRoll).linkT = s.linkT ∧ (s.startRoll).linkC = s.linkC ∧
    (s.startRoll).linkS = s.linkS ∧ (s.startRoll).expressionDeadline = s.expressionDeadline ∧
    (s.startRoll).console = s.console ∧ (s.startRoll).calibration = s.calibration ∧ (s.startRoll).timing = s.timing ∧
    (s.startRoll).queue = s.queue ∧ (s.startRoll).nextSeq = s.nextSeq ∧ (s.startRoll).slots = s.slots ∧
    (s.startRoll).keys = s.keys ∧ (s.startRoll).strikes = s.strikes ∧ (s.startRoll).pedals = s.pedals ∧
    (s.startRoll).drive = s.drive ∧ (s.startRoll).frameDeadline = s.frameDeadline ∧
    (s.startRoll).thermalDeadline = s.thermalDeadline ∧ (s.startRoll).freeCount = s.freeCount ∧
    (s.startRoll).pending = s.pending := by
  simp [State.startRoll]

@[simp] theorem State.loadRoll_frame (s : State) (r : Nat) :
    (s.loadRoll r).clock = s.clock ∧ (s.loadRoll r).expressionDeadline = s.expressionDeadline ∧
    (s.loadRoll r).console = s.console ∧ (s.loadRoll r).calibration = s.calibration ∧ (s.loadRoll r).timing = s.timing ∧
    (s.loadRoll r).queue = s.queue ∧ (s.loadRoll r).nextSeq = s.nextSeq ∧ (s.loadRoll r).slots = s.slots ∧
    (s.loadRoll r).keys = s.keys ∧ (s.loadRoll r).strikes = s.strikes ∧ (s.loadRoll r).pedals = s.pedals ∧
    (s.loadRoll r).drive = s.drive ∧ (s.loadRoll r).frameDeadline = s.frameDeadline ∧
    (s.loadRoll r).thermalDeadline = s.thermalDeadline ∧ (s.loadRoll r).freeCount = s.freeCount ∧
    (s.loadRoll r).pending = s.pending := by
  simp [State.loadRoll]

@[simp] theorem State.removeRoll_frame (s : State) :
    (s.removeRoll).clock = s.clock ∧ (s.removeRoll).expressionDeadline = s.expressionDeadline ∧
    (s.removeRoll).console = s.console ∧ (s.removeRoll).calibration = s.calibration ∧ (s.removeRoll).timing = s.timing ∧
    (s.removeRoll).nextSeq = s.nextSeq ∧ (s.removeRoll).drive = s.drive ∧ (s.removeRoll).frameDeadline = s.frameDeadline ∧
    (s.removeRoll).thermalDeadline = s.thermalDeadline ∧ (s.removeRoll).freeCount = s.freeCount ∧
    (s.removeRoll).pending = s.pending := by
  simp [State.removeRoll]

@[simp] theorem State.setShading_frame (s : State) (m : ShadingMode) (w g : Nat) :
    (s.setShading m w g).clock = s.clock ∧ (s.setShading m w g).linkT = s.linkT ∧ (s.setShading m w g).linkC = s.linkC ∧
    (s.setShading m w g).linkS = s.linkS ∧ (s.setShading m w g).intake = s.intake ∧
    (s.setShading m w g).tracker = s.tracker ∧ (s.setShading m w g).detectors = s.detectors ∧
    (s.setShading m w g).speed = s.speed ∧ (s.setShading m w g).stallTimer = s.stallTimer ∧
    (s.setShading m w g).startupTimer = s.startupTimer ∧ (s.setShading m w g).session = s.session ∧
    (s.setShading m w g).expressionDeadline = s.expressionDeadline ∧ (s.setShading m w g).struckKeys = s.struckKeys ∧
    (s.setShading m w g).calibration = s.calibration ∧ (s.setShading m w g).timing = s.timing ∧
    (s.setShading m w g).queue = s.queue ∧ (s.setShading m w g).nextSeq = s.nextSeq ∧ (s.setShading m w g).slots = s.slots ∧
    (s.setShading m w g).keys = s.keys ∧ (s.setShading m w g).strikes = s.strikes ∧ (s.setShading m w g).drive = s.drive ∧
    (s.setShading m w g).frameDeadline = s.frameDeadline ∧ (s.setShading m w g).thermalDeadline = s.thermalDeadline ∧
    (s.setShading m w g).freeCount = s.freeCount ∧ (s.setShading m w g).pending = s.pending := by
  generalize h : s.setShading m w g = t; unfold State.setShading at h; dsimp only at h; (repeat' split at h) <;> (subst h; simp)

@[simp] theorem State.setConsolePedals_frame (s : State) (d : Nat) (a b : Bool) :
    (s.setConsolePedals d a b).clock = s.clock ∧ (s.setConsolePedals d a b).linkT = s.linkT ∧
    (s.setConsolePedals d a b).linkC = s.linkC ∧ (s.setConsolePedals d a b).linkS = s.linkS ∧
    (s.setConsolePedals d a b).intake = s.intake ∧ (s.setConsolePedals d a b).tracker = s.tracker ∧
    (s.setConsolePedals d a b).detectors = s.detectors ∧ (s.setConsolePedals d a b).speed = s.speed ∧
    (s.setConsolePedals d a b).stallTimer = s.stallTimer ∧ (s.setConsolePedals d a b).startupTimer = s.startupTimer ∧
    (s.setConsolePedals d a b).session = s.session ∧ (s.setConsolePedals d a b).expressionDeadline = s.expressionDeadline ∧
    (s.setConsolePedals d a b).struckKeys = s.struckKeys ∧ (s.setConsolePedals d a b).console = s.console ∧
    (s.setConsolePedals d a b).calibration = s.calibration ∧ (s.setConsolePedals d a b).timing = s.timing ∧
    (s.setConsolePedals d a b).queue = s.queue ∧ (s.setConsolePedals d a b).nextSeq = s.nextSeq ∧
    (s.setConsolePedals d a b).slots = s.slots ∧ (s.setConsolePedals d a b).keys = s.keys ∧
    (s.setConsolePedals d a b).strikes = s.strikes ∧ (s.setConsolePedals d a b).drive = s.drive ∧
    (s.setConsolePedals d a b).frameDeadline = s.frameDeadline ∧
    (s.setConsolePedals d a b).thermalDeadline = s.thermalDeadline ∧ (s.setConsolePedals d a b).freeCount = s.freeCount ∧
    (s.setConsolePedals d a b).pending = s.pending := by
  generalize h : s.setConsolePedals d a b = t; unfold State.setConsolePedals at h; dsimp only at h; (repeat' split at h) <;> (subst h; simp)

@[simp] theorem State.writeKeyCal_frame (s : State) (k : Key) (c : KeyCal) :
    (s.writeKeyCal k c).clock = s.clock ∧ (s.writeKeyCal k c).linkT = s.linkT ∧ (s.writeKeyCal k c).linkC = s.linkC ∧
    (s.writeKeyCal k c).linkS = s.linkS ∧ (s.writeKeyCal k c).intake = s.intake ∧ (s.writeKeyCal k c).tracker = s.tracker ∧
    (s.writeKeyCal k c).detectors = s.detectors ∧ (s.writeKeyCal k c).speed = s.speed ∧
    (s.writeKeyCal k c).stallTimer = s.stallTimer ∧ (s.writeKeyCal k c).startupTimer = s.startupTimer ∧
    (s.writeKeyCal k c).session = s.session ∧ (s.writeKeyCal k c).shaping = s.shaping ∧
    (s.writeKeyCal k c).expressionDeadline = s.expressionDeadline ∧ (s.writeKeyCal k c).struckKeys = s.struckKeys ∧
    (s.writeKeyCal k c).console = s.console ∧ (s.writeKeyCal k c).timing = s.timing ∧ (s.writeKeyCal k c).queue = s.queue ∧
    (s.writeKeyCal k c).nextSeq = s.nextSeq ∧ (s.writeKeyCal k c).slots = s.slots ∧ (s.writeKeyCal k c).keys = s.keys ∧
    (s.writeKeyCal k c).strikes = s.strikes ∧ (s.writeKeyCal k c).pedals = s.pedals ∧ (s.writeKeyCal k c).drive = s.drive ∧
    (s.writeKeyCal k c).frameDeadline = s.frameDeadline ∧ (s.writeKeyCal k c).thermalDeadline = s.thermalDeadline ∧
    (s.writeKeyCal k c).freeCount = s.freeCount ∧ (s.writeKeyCal k c).pending = s.pending := by
  simp [State.writeKeyCal]

@[simp] theorem State.testTakeover_frame (s : State) (k : Key) :
    (s.testTakeover k).clock = s.clock ∧ (s.testTakeover k).intake = s.intake ∧ (s.testTakeover k).tracker = s.tracker ∧
    (s.testTakeover k).detectors = s.detectors ∧ (s.testTakeover k).speed = s.speed ∧
    (s.testTakeover k).stallTimer = s.stallTimer ∧ (s.testTakeover k).startupTimer = s.startupTimer ∧
    (s.testTakeover k).session = s.session ∧ (s.testTakeover k).shaping = s.shaping ∧
    (s.testTakeover k).expressionDeadline = s.expressionDeadline ∧ (s.testTakeover k).struckKeys = s.struckKeys ∧
    (s.testTakeover k).console = s.console ∧ (s.testTakeover k).calibration = s.calibration ∧
    (s.testTakeover k).timing = s.timing ∧ (s.testTakeover k).slots = s.slots ∧ (s.testTakeover k).pedals = s.pedals ∧
    (s.testTakeover k).drive = s.drive ∧ (s.testTakeover k).frameDeadline = s.frameDeadline ∧
    (s.testTakeover k).thermalDeadline = s.thermalDeadline ∧ (s.testTakeover k).freeCount = s.freeCount ∧
    (s.testTakeover k).pending = s.pending := by
  generalize h : s.testTakeover k = t; unfold State.testTakeover at h; (repeat' split at h) <;> (subst h; simp)

@[simp] theorem State.testStrike_frame (s : State) (k : Key) (i m : Nat) :
    (s.testStrike k i m).clock = s.clock ∧ (s.testStrike k i m).intake = s.intake ∧
    (s.testStrike k i m).tracker = s.tracker ∧ (s.testStrike k i m).detectors = s.detectors ∧
    (s.testStrike k i m).speed = s.speed ∧ (s.testStrike k i m).stallTimer = s.stallTimer ∧
    (s.testStrike k i m).startupTimer = s.startupTimer ∧ (s.testStrike k i m).session = s.session ∧
    (s.testStrike k i m).shaping = s.shaping ∧ (s.testStrike k i m).expressionDeadline = s.expressionDeadline ∧
    (s.testStrike k i m).struckKeys = s.struckKeys ∧ (s.testStrike k i m).console = s.console ∧
    (s.testStrike k i m).calibration = s.calibration ∧ (s.testStrike k i m).timing = s.timing ∧
    (s.testStrike k i m).slots = s.slots ∧ (s.testStrike k i m).pedals = s.pedals ∧ (s.testStrike k i m).drive = s.drive ∧
    (s.testStrike k i m).frameDeadline = s.frameDeadline ∧ (s.testStrike k i m).thermalDeadline = s.thermalDeadline ∧
    (s.testStrike k i m).freeCount = s.freeCount ∧ (s.testStrike k i m).pending = s.pending := by
  simp [State.testStrike]

@[simp] theorem State.faultAtReset_frame (s : State) :
    (s.faultAtReset).clock = s.clock ∧ (s.faultAtReset).intake = s.intake ∧ (s.faultAtReset).tracker = s.tracker ∧
    (s.faultAtReset).detectors = s.detectors ∧ (s.faultAtReset).expressionDeadline = s.expressionDeadline ∧
    (s.faultAtReset).console = s.console ∧ (s.faultAtReset).calibration = s.calibration ∧
    (s.faultAtReset).timing = s.timing ∧ (s.faultAtReset).nextSeq = s.nextSeq ∧
    (s.faultAtReset).frameDeadline = s.frameDeadline ∧ (s.faultAtReset).thermalDeadline = s.thermalDeadline ∧
    (s.faultAtReset).freeCount = s.freeCount ∧ (s.faultAtReset).pending = s.pending := by
  generalize h : s.faultAtReset = t; unfold State.faultAtReset at h; (repeat' split at h) <;> (subst h; simp)

@[simp] theorem State.startFailed_frame (s : State) :
    (s.startFailed).clock = s.clock ∧ (s.startFailed).intake = s.intake ∧ (s.startFailed).tracker = s.tracker ∧
    (s.startFailed).detectors = s.detectors ∧ (s.startFailed).expressionDeadline = s.expressionDeadline ∧
    (s.startFailed).console = s.console ∧ (s.startFailed).calibration = s.calibration ∧ (s.startFailed).timing = s.timing ∧
    (s.startFailed).nextSeq = s.nextSeq ∧ (s.startFailed).drive = s.drive ∧ (s.startFailed).frameDeadline = s.frameDeadline ∧
    (s.startFailed).thermalDeadline = s.thermalDeadline ∧ (s.startFailed).freeCount = s.freeCount ∧
    (s.startFailed).pending = s.pending := by
  generalize h : s.startFailed = t; unfold State.startFailed at h; (repeat' split at h) <;> (subst h; simp)

end Sys2Proof.Machine
end

