-- ==== Sys2Proof/Laws/Requests.lean ====
section
/-! SUPPORT. What a link's port and a request frame do: reading a link after a write, the four outcomes of R177, and the links
after a reply or a raised event. -/

namespace Sys2Proof.Machine

/-! ## Links -/

@[simp] theorem State.link_setLink_same (s : State) (l : Link) (p : LinkPort) : (s.setLink l p).link l = p := by
  cases l <;> rfl

theorem State.link_setLink_other (s : State) {l m : Link} (p : LinkPort) (h : m ≠ l) : (s.setLink l p).link m = s.link m := by
  cases l <;> cases m <;> simp_all [State.setLink, State.link]

theorem State.link_setLink (s : State) (l m : Link) (p : LinkPort) :
    (s.setLink l p).link m = if m = l then p else s.link m := by
  split
  · subst m; simp
  · exact s.link_setLink_other p ‹_›

@[simp] theorem State.setLink_setLink (s : State) (l : Link) (p q : LinkPort) : (s.setLink l p).setLink l q = s.setLink l q := by
  cases l <;> rfl

@[simp] theorem State.setLink_link (s : State) (l : Link) : s.setLink l (s.link l) = s := by cases l <;> rfl

/-- Two states with equal links and all else equal are equal. -/
theorem State.eq_of_links {s t : State} (hl : ∀ l, t.link l = s.link l)
    (hf : { t with linkT := s.linkT, linkC := s.linkC, linkS := s.linkS } = s) : t = s := by
  have hT := hl .T
  have hC := hl .C
  have hS := hl .S
  simp only [State.link] at hT hC hS
  rw [← hf, ← hT, ← hC, ← hS]

@[simp] theorem State.link_raise (s : State) (e : EventKind) (l : Link) :
    (s.raise e).link l = { s.link l with latch := (s.link l).latch ||| e.bit } := by
  cases l <;> rfl

/-- The links read the same in two states that agree on the three ports. -/
theorem State.link_congr {s t : State} (hT : t.linkT = s.linkT) (hC : t.linkC = s.linkC) (hS : t.linkS = s.linkS) (l : Link) :
    t.link l = s.link l := by
  cases l <;> simp [State.link, hT, hC, hS]

/-! ## The outcomes of a request frame (R177, R181) -/

theorem State.ignores_iff (s : State) (l : Link) : s.ignores l = true ↔ (s.link l).transaction = .ignored := by
  simp [State.ignores]

theorem State.ignores_of_hears {s : State} {l : Link} (h : s.hears l) : s.ignores l = false := by
  simpa [State.ignores, State.hears] using h

/-- The state at the end of a request's transaction, before its reply. -/
def State.heard (s : State) (h : Head) : State := s.endTransaction h.link (3 + h.declared.toNat) 0

theorem State.heard_frame (s : State) (h : Head) :
    { s.heard h with linkT := s.linkT, linkC := s.linkC, linkS := s.linkS } = s := by
  obtain ⟨l, tag, d⟩ := h
  cases l <;> rfl

/-- Only the links tell the state at the end of a transaction from the state before it. -/
@[simp] theorem State.heard_fields (s : State) (h : Head) :
    (s.heard h).clock = s.clock ∧ (s.heard h).intake = s.intake ∧ (s.heard h).tracker = s.tracker ∧
    (s.heard h).detectors = s.detectors ∧ (s.heard h).speed = s.speed ∧ (s.heard h).stallTimer = s.stallTimer ∧
    (s.heard h).startupTimer = s.startupTimer ∧ (s.heard h).session = s.session ∧ (s.heard h).shaping = s.shaping ∧
    (s.heard h).expressionDeadline = s.expressionDeadline ∧ (s.heard h).struckKeys = s.struckKeys ∧
    (s.heard h).console = s.console ∧ (s.heard h).calibration = s.calibration ∧ (s.heard h).timing = s.timing ∧
    (s.heard h).queue = s.queue ∧ (s.heard h).nextSeq = s.nextSeq ∧ (s.heard h).slots = s.slots ∧ (s.heard h).keys = s.keys ∧
    (s.heard h).strikes = s.strikes ∧ (s.heard h).pedals = s.pedals ∧ (s.heard h).drive = s.drive ∧
    (s.heard h).frameDeadline = s.frameDeadline ∧ (s.heard h).thermalDeadline = s.thermalDeadline ∧
    (s.heard h).freeCount = s.freeCount ∧ (s.heard h).pending = s.pending := by
  simp [State.heard]

theorem State.request_ignored {s : State} {h : Head} (permitted : Link → Bool) (length : Nat) (act : State → Taken)
    (hi : (s.link h.link).transaction = .ignored) :
    s.request h permitted length act = s.setLink h.link { s.link h.link with transaction := .idle } := by
  simp [State.request, State.ignores, hi, State.releaseIgnored]

theorem State.request_refused {s : State} {h : Head} {permitted : Link → Bool} {length : Nat} (act : State → Taken)
    {status : Status} (hh : s.hears h.link) (hr : framingRefusal h permitted length = some status) :
    s.request h permitted length act = (s.heard h).answer h.link (refusal h status) := by
  simp [State.request, State.ignores_of_hears hh, hr, State.heard, refusal]

theorem State.request_taken {s : State} {h : Head} {permitted : Link → Bool} {length : Nat} {act : State → Taken}
    {t : State} {status : Status} {payload : List Byte} (hh : s.hears h.link) (hp : permitted h.link = true)
    (hd : h.declared.toNat = length) (ha : act (s.heard h) = (t, some (status, payload))) :
    s.request h permitted length act = t.answer h.link ⟨status, h.tag, payload⟩ := by
  rw [State.heard, hd] at ha
  simp [State.request, State.ignores_of_hears hh, framingRefusal, hp, hd, ha]

theorem State.request_silent {s : State} {h : Head} {permitted : Link → Bool} {length : Nat} {act : State → Taken}
    {t : State} (hh : s.hears h.link) (hp : permitted h.link = true)
    (hd : h.declared.toNat = length) (ha : act (s.heard h) = (t, none)) :
    s.request h permitted length act = t := by
  rw [State.heard, hd] at ha
  simp [State.request, State.ignores_of_hears hh, framingRefusal, hp, hd, ha]

/-! ## Answers -/

theorem State.link_heard (s : State) (h : Head) (l : Link) :
    (s.heard h).link l =
      if l = h.link then
        { s.link l with transaction := .idle,
                        lastOut := clockedOut (s.link l).fixedReply (3 + h.declared.toNat) 0 }
      else s.link l := by
  rw [State.heard, State.endTransaction, State.link_setLink]
  split
  · subst l; rfl
  · rfl

/-- A reply placed after effects that raise some kinds answers with them. -/
theorem Answers.of_raises {s t : State} {h : Head} {kinds : BitVec 8} (r : Reply) (ht : Raises (s.heard h) t kinds) :
    Answers s (t.answer h.link r) h r kinds := by
  intro l
  by_cases hl : l = h.link
  · subst l; simp [State.answer, ht h.link, State.link_heard]
  · simp [State.answer, State.link_setLink, ht l, State.link_heard, hl]

/-- Effects that leave the slots and raise some kinds, after the end of a transaction. -/
theorem Hears.of_raises {s t : State} {h : Head} {kinds : BitVec 8} (ht : Raises (s.heard h) t kinds) : Hears s t h kinds := by
  intro l
  by_cases hl : l = h.link
  · subst l; simp [ht h.link, State.link_heard]
  · simp [ht l, State.link_heard, hl]

/-- Links that stay as they are raise nothing. -/
theorem Raises.none {s t : State} (hT : t.linkT = s.linkT) (hC : t.linkC = s.linkC) (hS : t.linkS = s.linkS) :
    Raises s t 0#8 := by
  intro l
  cases l <;> simp [State.link, hT, hC, hS]

theorem Raises.refl (s : State) : Raises s s 0#8 := Raises.none rfl rfl rfl

/-- A raised kind after others. -/
theorem Raises.raise {s t : State} {kinds : BitVec 8} (ht : Raises s t kinds) (e : EventKind) :
    Raises s (t.raise e) (kinds ||| e.bit) := by
  intro l
  rw [State.link_raise, ht l, BitVec.or_assoc]

theorem Raises.trans {s t u : State} {a b : BitVec 8} (h : Raises s t a) (h' : Raises t u b) : Raises s u (a ||| b) := by
  intro l
  rw [h' l, h l, BitVec.or_assoc]

/-- Links untouched by a further change keep what was raised. -/
theorem Raises.keep {s t u : State} {kinds : BitVec 8} (h : Raises s t kinds) (hT : u.linkT = t.linkT) (hC : u.linkC = t.linkC)
    (hS : u.linkS = t.linkS) : Raises s u kinds := by
  intro l
  rw [State.link_congr hT hC hS, h l]

/-- A SCAN_LINE that reaches step 5 is handed to the intake, and no slot changes (R1, R178). -/
theorem exec_scanLine_taken {h : Head} {s : State} (ht : s.takes h [.T] 39) (index left right : BitVec 16) (flags : BitVec 8)
    (photosites : BitVec 256) :
    exec (.scanLine h index left right flags photosites) s =
      .next ((s.heard h).takeLine (carriedLine index left right flags photosites)) := by
  obtain ⟨hh, hl, hd⟩ := ht
  simp only [List.mem_singleton] at hl
  exact congrArg Host.Outcome.next (State.request_silent hh (by simp [onT, hl]) hd rfl)

/-- A request refused at step 5 only answers. -/
theorem OnlyAnswers.of_answer {i : Instr} {h : Head} {r : Reply} {s : State}
    (hx : exec i s = .next ((s.heard h).answer h.link r)) : OnlyAnswers i h r s := by
  refine ⟨_, hx, Answers.of_raises r (Raises.refl _), ?_⟩
  obtain ⟨l, tag, d⟩ := h
  cases l <;> rfl

/-- Two states that agree in every field are equal. -/
theorem State.eq_of_fields {s t : State} (h1 : t.clock = s.clock) (h2 : t.linkT = s.linkT) (h3 : t.linkC = s.linkC) (h4 : t.linkS = s.linkS)
  (h5 : t.intake = s.intake) (h6 : t.tracker = s.tracker) (h7 : t.detectors = s.detectors) (h8 : t.speed = s.speed)
  (h9 : t.stallTimer = s.stallTimer) (h10 : t.startupTimer = s.startupTimer) (h11 : t.session = s.session) (h12 : t.shaping = s.shaping)
  (h13 : t.expressionDeadline = s.expressionDeadline) (h14 : t.struckKeys = s.struckKeys) (h15 : t.console = s.console)
  (h16 : t.calibration = s.calibration) (h17 : t.timing = s.timing) (h18 : t.queue = s.queue) (h19 : t.nextSeq = s.nextSeq)
  (h20 : t.slots = s.slots) (h21 : t.keys = s.keys) (h22 : t.strikes = s.strikes) (h23 : t.pedals = s.pedals) (h24 : t.drive = s.drive)
  (h25 : t.frameDeadline = s.frameDeadline) (h26 : t.thermalDeadline = s.thermalDeadline) (h27 : t.freeCount = s.freeCount)
  (h28 : t.pending = s.pending) : t = s := by
  cases s; cases t; simp_all

/-- A request that is taken and answered, on a link the row is permitted on. -/
theorem exec_request_answered {i : Instr} {h : Head} {s : State} {p : Link → Bool} {n : Nat} {act : State → Taken} {links : List Link} (ht : s.takes h links n)
   (hp : p h.link = true) (hx : exec i s = .next (s.request h p n act)) {t : State} {st pl} (ha : act (s.heard h) = (t, some (st, pl))) :
   exec i s = .next (t.answer h.link ⟨st, h.tag, pl⟩) := by
  rw [hx, State.request_taken ht.1 hp ht.2.2 ha]

theorem onC_of_mem {h : Head} (hl : h.link ∈ [Link.C]) : onC h.link = true := by simp at hl; simp [onC, hl]

/-- A C-link request that its own checks refuse changes only the slot. -/
theorem onlyAnswers_refusedC {i : Instr} {h : Head} {s : State} {n : Nat} {act : State → Taken} (ht : s.takes h [.C] n)
    (hx : exec i s = .next (s.request h onC n act)) {st} (ha : act (s.heard h) = refusedWith (s.heard h) st) :
    OnlyAnswers i h (refusal h st) s :=
  OnlyAnswers.of_answer (exec_request_answered ht (onC_of_mem ht.2.1) hx ha)

theorem onS_of_mem {h : Head} (hl : h.link ∈ [Link.S]) : onS h.link = true := by simp at hl; simp [onS, hl]

/-- A S-link request that its own checks refuse changes only the slot. -/
theorem onlyAnswers_refusedS {i : Instr} {h : Head} {s : State} {n : Nat} {act : State → Taken} (ht : s.takes h [.S] n)
    (hx : exec i s = .next (s.request h onS n act)) {st} (ha : act (s.heard h) = refusedWith (s.heard h) st) :
    OnlyAnswers i h (refusal h st) s :=
  OnlyAnswers.of_answer (exec_request_answered ht (onS_of_mem ht.2.1) hx ha)

theorem onT_of_mem {h : Head} (hl : h.link ∈ [Link.T]) : onT h.link = true := by simp at hl; simp [onT, hl]

/-- A T-link request that its own checks refuse changes only the slot. -/
theorem onlyAnswers_refusedT {i : Instr} {h : Head} {s : State} {n : Nat} {act : State → Taken} (ht : s.takes h [.T] n)
    (hx : exec i s = .next (s.request h onT n act)) {st} (ha : act (s.heard h) = refusedWith (s.heard h) st) :
    OnlyAnswers i h (refusal h st) s :=
  OnlyAnswers.of_answer (exec_request_answered ht (onT_of_mem ht.2.1) hx ha)

end Sys2Proof.Machine
end

