-- ==== Sys2Proof/Laws/Keys.lean ====
section
/-! SUPPORT. What the operations over the key records, the pedals and the counters write. -/

namespace Sys2Proof.Machine

/-! ## Counters and times -/

theorem satAdd_eq_bump (c : BitVec 32) (n : Nat) : satAdd c n = bump c n := by simp [satAdd, bump]

@[simp] theorem satAdd_zero {w : Nat} (c : BitVec w) : satAdd c 0 = c := by
  have h := c.isLt
  simp only [satAdd, Nat.add_zero]
  rw [Nat.min_eq_left (by omega)]
  simp

/-! ## Key records -/

@[simp] theorem State.key_setKey_same (s : State) (k : Key) (r : KeyRecord) : (s.setKey k r).key k = r := by
  simp [State.key, State.setKey]

theorem State.key_setKey_other (s : State) {k j : Key} (r : KeyRecord) (h : j ≠ k) : (s.setKey k r).key j = s.key j := by
  have : (k : Nat) ≠ j := fun he => h (Fin.ext he.symm)
  simp [State.key, State.setKey, Vector.getElem_set_ne _ _ this]

theorem State.key_setKey (s : State) (k j : Key) (r : KeyRecord) :
    (s.setKey k r).key j = if j = k then r else s.key j := by
  split
  · subst j; simp
  · exact s.key_setKey_other r ‹_›

@[simp] theorem State.key_mapKeys (s : State) (f : Key → KeyRecord → KeyRecord) (k : Key) :
    (s.mapKeys f).key k = f k (s.key k) := by
  simp [State.key, State.mapKeys]

/-- Two states with equal key records read the same. -/
theorem State.key_congr {s t : State} (h : t.keys = s.keys) (k : Key) : t.key k = s.key k := by simp [State.key, h]

theorem State.keyCal_congr {s t : State} (h : t.calibration = s.calibration) (k : Key) : t.keyCal k = s.keyCal k := by
  simp [State.keyCal, h]

/-- A state's key vector is the one its records spell. -/
theorem State.keys_ext {s t : State} (h : ∀ k, t.key k = s.key k) : t.keys = s.keys := by
  apply Vector.ext
  intro i hi
  simpa [State.key] using h ⟨i, hi⟩

@[simp] theorem State.key_flushQueue (s : State) (k : Key) : s.flushQueue.key k = s.key k := by simp [State.key]

theorem State.key_releaseKeys (s : State) (k : Key) :
    s.releaseKeys.key k = { s.key k with phase := s.cutPhase k } := by
  have h : s.releaseKeys.key k = (s.mapKeys fun k r => r.cutShort s.clock (s.keyCal k).settle).key k := by
    simp only [State.releaseKeys, State.key]
  rw [h, State.key_mapKeys]
  rcases hr : s.key k with ⟨phase, owner, idleSince, heat, thermal, strikeCount, lateCount⟩
  cases phase <;> simp [KeyRecord.cutShort, Phase.isSounding, KeyRecord.release, State.cutPhase, hr]

@[simp] theorem State.slots_releaseKeys (s : State) : s.releaseKeys.slots = [] := by simp [State.releaseKeys]

@[simp] theorem State.key_clearOwners (s : State) (k : Key) : s.clearOwners.key k = { s.key k with owner := none } := by
  simp [State.clearOwners]

@[simp] theorem State.owner_setOwner (s : State) (k j : Key) (o : Option Owner) :
    ((s.setOwner k o).key j).owner = if j = k then o else (s.key j).owner := by
  rw [State.setOwner, State.key_setKey]
  split <;> simp

@[simp] theorem State.phase_setOwner (s : State) (k j : Key) (o : Option Owner) :
    ((s.setOwner k o).key j).phase = (s.key j).phase := by
  rw [State.setOwner, State.key_setKey]
  split
  · subst j; rfl
  · rfl

/-! ## Pedals -/

theorem State.reformDamper_pedals (s : State) : s.reformDamper.pedals = { s.pedals with mergedDamper := s.damperMerge } := by
  unfold State.reformDamper
  dsimp only
  split
  · rename_i h; rw [h]
  · rfl

theorem State.reformSoft_pedals (s : State) : s.reformSoft.pedals = { s.pedals with mergedSoft := s.softMerge } := by
  unfold State.reformSoft
  dsimp only
  split
  · rename_i h; rw [h]
  · rfl

theorem State.reformDamper_shaping (s : State) :
    s.reformDamper.shaping = { s.shaping with ch2 := { s.shaping.ch2 with
      target := if s.damperMerge = s.pedals.mergedDamper then s.shaping.ch2.target else pedalTarget s.damperMerge } } := by
  unfold State.reformDamper
  dsimp only
  split
  · rfl
  · rfl

theorem State.reformSoft_shaping (s : State) :
    s.reformSoft.shaping = { s.shaping with ch3 := { s.shaping.ch3 with
      target := if s.softMerge = s.pedals.mergedSoft then s.shaping.ch3.target else pedalTarget s.softMerge } } := by
  unfold State.reformSoft
  dsimp only
  split
  · rfl
  · rfl

/-- Forming the soft merge reads nothing that forming the damper merge writes. -/
theorem State.softMerge_reformDamper (s : State) : s.reformDamper.softMerge = s.softMerge := by
  simp [State.softMerge, State.reformDamper_pedals]

/-- The pedal unit after both merges are formed again (R155, R156). -/
theorem State.reformMerge_pedals (s : State) :
    s.reformMerge.pedals = { s.pedals with mergedDamper := s.damperMerge, mergedSoft := s.softMerge } := by
  rw [State.reformMerge, State.reformSoft_pedals, State.softMerge_reformDamper, State.reformDamper_pedals]

/-- The shaping engine after both merges are formed again (R80, R156). -/
theorem State.reformMerge_shaping (s : State) : s.reformMerge.shaping = s.shapingFor s.damperMerge s.softMerge := by
  rw [State.reformMerge, State.reformSoft_shaping, State.softMerge_reformDamper, State.reformDamper_shaping,
    State.reformDamper_pedals]
  rfl

/-- The pedal unit after both roll requests are set (R153). -/
theorem State.setRollRequests_pedals (s : State) (damper soft : Nat) :
    (s.setRollRequests damper soft).pedals =
      { s.pedals with rollDamper := damper, rollSoft := soft
                      mergedDamper := mergePosition s.console.mode damper s.pedals.consoleDamper
                      mergedSoft := mergePosition s.console.mode soft (requestOf s.pedals.consoleSoft) } := by
  rw [State.setRollRequests, State.reformMerge_pedals]
  rfl

theorem State.setRollRequests_shaping (s : State) (damper soft : Nat) :
    (s.setRollRequests damper soft).shaping =
      s.shapingFor (mergePosition s.console.mode damper s.pedals.consoleDamper)
        (mergePosition s.console.mode soft (requestOf s.pedals.consoleSoft)) := by
  rw [State.setRollRequests, State.reformMerge_shaping]
  rfl

end Sys2Proof.Machine
end

