-- ==== Sys2Proof/Laws/Session.lean ====
section
/-! SUPPORT. What the moves of the session do: the silence notice, the change of state, and the entries built from them. -/

namespace Sys2Proof.Machine

/-! ## The silence notice -/

theorem State.silentPedals_congr {s u : State} (hp : u.pedals = s.pedals) (hm : u.console = s.console) :
    u.silentPedals = s.silentPedals := by simp only [State.silentPedals, hp, hm]

theorem State.shapingFor_congr {s u : State} (hp : u.pedals = s.pedals) (hsh : u.shaping = s.shaping) (a b : Nat) :
    u.shapingFor a b = s.shapingFor a b := by
  unfold State.shapingFor
  rw [hp, hsh]

/-- A silence notice has the effects that R74 lists. -/
theorem State.silence_silences (s : State) : Silences s s.silence := by
  have hk : ∀ k, s.silence.key k = { s.key k with phase := s.cutPhase k, owner := none } := by
    intro k
    have h : s.silence.key k = s.flushQueue.releaseKeys.clearOwners.key k := by
      apply State.key_congr
      simp [State.silence]
    rw [h, State.key_clearOwners, State.key_releaseKeys]
    rfl
  refine ⟨?_, ?_, ?_, hk, ?_, ?_, ?_⟩
  · simp [State.silence, State.flushQueue]
  · simp [State.silence, State.flushQueue, State.cancelledStrikes]
  · simp [State.silence]
  · intro n; simp [State.silence]
  · simp [State.silence, State.setRollRequests_pedals, State.silentPedals]
  · have h : ∀ u : State, u.console = s.console → u.pedals = s.pedals → u.shaping = s.shaping →
        (u.setRollRequests 0 0).shaping = s.shapingFor s.silentPedals.mergedDamper s.silentPedals.mergedSoft := by
      intro u hm hp hsh
      rw [State.setRollRequests_shaping, hm, hp, State.shapingFor_congr hp hsh]
      rfl
    exact h _ (by simp) (by simp) (by simp)

/-- Silence after changes that touch nothing the notice reads or writes. -/
theorem Silences.of_same {s u t : State} (h : Silences u t) (hq : u.queue = s.queue) (hs : u.strikes = s.strikes)
    (hk : u.keys = s.keys) (hc : u.clock = s.clock) (hcal : u.calibration = s.calibration) (hp : u.pedals = s.pedals)
    (hm : u.console = s.console) (hsh : u.shaping = s.shaping) : Silences s t where
  queue := h.queue
  strikes := by rw [h.strikes]; simp [State.cancelledStrikes, hq, hs]
  slots := h.slots
  keys k := by
    rw [h.keys k]
    simp [State.cutPhase, State.key, State.keyCal, hk, hc, hcal]
  struckKeys := h.struckKeys
  pedals := by rw [h.pedals]; simp [State.silentPedals, hp, hm]
  shaping := by rw [h.shaping, State.shapingFor_congr hp hsh, State.silentPedals_congr hp hm]

/-- Later changes that touch nothing the notice wrote keep its effects. -/
theorem Silences.keep {s t u : State} (h : Silences s t) (hq : u.queue = t.queue) (hs : u.strikes = t.strikes)
    (hsl : u.slots = t.slots) (hk : u.keys = t.keys) (hn : u.struckKeys = t.struckKeys) (hp : u.pedals = t.pedals)
    (hsh : u.shaping = t.shaping) : Silences s u where
  queue := by rw [hq, h.queue]
  strikes := by rw [hs, h.strikes]
  slots := by rw [hsl, h.slots]
  keys k := by rw [State.key_congr hk, h.keys k]
  struckKeys n := by rw [hn]; exact h.struckKeys n
  pedals := by rw [hp, h.pedals]
  shaping := by rw [hsh, h.shaping]

/-- A second notice on the same event changes nothing more. -/
theorem Silences.trans {s t u : State} (h : Silences s t) (h' : Silences t u) (hcon : t.console = s.console) : Silences s u where
  queue := h'.queue
  strikes := by rw [h'.strikes]; simp [State.cancelledStrikes, h.queue, h.strikes, strikeEntries]
  slots := h'.slots
  keys k := by
    rw [h'.keys k]
    have hk := h.keys k
    have hp : t.cutPhase k = s.cutPhase k := by
      simp only [State.cutPhase, hk]
      cases (s.key k).phase <;> rfl
    rw [hk, hp]
  struckKeys := h'.struckKeys
  pedals := by rw [h'.pedals]; simp [State.silentPedals, h.pedals, hcon]
  shaping := by
    rw [h'.shaping]
    simp [State.shapingFor, State.silentPedals, h.pedals, h.shaping, hcon]

/-! ## Changes of state -/

@[simp] theorem State.moveSession_session (s : State) (d : SessionState) :
    (s.moveSession d).session = { s.session with state := d, causes := CauseSet.empty } := rfl

@[simp] theorem State.moveSession_startupTimer (s : State) (d : SessionState) :
    (s.moveSession d).startupTimer = if s.session.state = .starting then none else s.startupTimer := rfl

@[simp] theorem State.moveSession_stallTimer (s : State) (d : SessionState) :
    (s.moveSession d).stallTimer = if s.session.state = .playing then none else s.stallTimer := rfl

@[simp] theorem State.moveSession_speed (s : State) (d : SessionState) :
    (s.moveSession d).speed = if s.session.state.isRunning && !d.isRunning then s.speed.inactive else s.speed := rfl

theorem State.moveSession_raises (s : State) (d : SessionState) : Raises s (s.moveSession d) 0x01#8 := by
  intro l; cases l <;> rfl

theorem SessionState.isRunning_iff (st : SessionState) : st.isRunning = true ↔ st = .starting ∨ st = .playing := by
  cases st <;> simp [SessionState.isRunning]

/-- A move to a state that does not run stops what ran. -/
theorem State.moveSession_stops (s : State) {d : SessionState} (hd : d.isRunning = false) : StopsRunning s (s.moveSession d) := by
  refine ⟨by simp, by simp, ?_⟩
  rw [State.moveSession_speed, hd]
  cases s.session.state <;> simp [SessionState.isRunning]

theorem StopsRunning.keep {s t u : State} (h : StopsRunning s t) (h1 : u.startupTimer = t.startupTimer)
    (h2 : u.stallTimer = t.stallTimer) (h3 : u.speed = t.speed) : StopsRunning s u :=
  ⟨by rw [h1, h.startupTimer], by rw [h2, h.stallTimer], by rw [h3, h.speed]⟩

theorem State.silence_raises (s : State) : Raises s s.silence 0#8 := Raises.none (by simp) (by simp) (by simp)

@[simp] theorem State.setLastCause_session (s : State) (c : Option LastCause) :
    (s.setLastCause c).session = { s.session with lastCause := c } := rfl

/-! ## Entries -/

/-- Entry to PAUSED: the record moved, SESSION raised, silence, timers and monitor stopped (R65, R66, R68). -/
theorem State.enterPaused_spec (s : State) (c : Option LastCause) :
    (s.enterPaused c).session = s.session.movedTo .paused c ∧ Raises s (s.enterPaused c) 0x01#8 ∧
      Silences s (s.enterPaused c) ∧ StopsRunning s (s.enterPaused c) := by
  refine ⟨by simp [State.enterPaused, Session.movedTo], ?_, ?_, ?_⟩
  · exact (s.moveSession_raises .paused).keep (by simp [State.enterPaused]) (by simp [State.enterPaused])
      (by simp [State.enterPaused])
  · exact (State.silence_silences _).of_same (by simp) (by simp) (by simp) (by simp) (by simp) (by simp) (by simp) (by simp)
  · exact (s.moveSession_stops (d := .paused) rfl).keep (by simp [State.enterPaused]) (by simp [State.enterPaused]) (by simp [State.enterPaused])

/-- Entry to STALLED with one cause (R59, R63). -/
theorem State.enterStalled_spec (s : State) (c : StallCause) :
    (s.enterStalled c).session = { s.session with state := .stalled, causes := CauseSet.empty.add c } ∧
      Raises s (s.enterStalled c) 0x01#8 ∧ Silences s (s.enterStalled c) ∧ StopsRunning s (s.enterStalled c) := by
  refine ⟨by simp [State.enterStalled], ?_, ?_, ?_⟩
  · exact (s.moveSession_raises .stalled).keep (by simp [State.enterStalled]) (by simp [State.enterStalled])
      (by simp [State.enterStalled])
  · refine Silences.of_same (s := s) (u := s.moveSession .stalled) ?_ (by simp) (by simp) (by simp) (by simp) (by simp) (by simp)
      (by simp) (by simp)
    exact (State.silence_silences _).keep rfl rfl rfl rfl rfl rfl rfl
  · exact (s.moveSession_stops (d := .stalled) rfl).keep (by simp [State.enterStalled]) (by simp [State.enterStalled])
      (by simp [State.enterStalled])

/-- Entry to RETURNING: as every silence entry, with the intake OFF and emptied (R3, R10, R67). -/
theorem State.enterReturning_spec (s : State) (c : LastCause) :
    (s.enterReturning c).session = s.session.movedTo .returning (some c) ∧ Raises s (s.enterReturning c) 0x01#8 ∧
      Silences s (s.enterReturning c) ∧ StopsRunning s (s.enterReturning c) ∧
      (s.enterReturning c).intake = { s.intake with state := .off, queue := [], decode := none } := by
  refine ⟨by simp [State.enterReturning, Session.movedTo], ?_, ?_, ?_, by simp [State.enterReturning, Intake.stopped, Intake.emptied]⟩
  · exact (s.moveSession_raises .returning).keep (by simp [State.enterReturning]) (by simp [State.enterReturning])
      (by simp [State.enterReturning])
  · refine Silences.of_same (s := s) (u := (s.moveSession .returning).setLastCause (some c)) ?_ (by simp) (by simp) (by simp)
      (by simp) (by simp) (by simp) (by simp) (by simp)
    exact (State.silence_silences _).keep rfl rfl rfl rfl rfl rfl rfl
  · exact (s.moveSession_stops (d := .returning) rfl).keep (by simp [State.enterReturning]) (by simp [State.enterReturning])
      (by simp [State.enterReturning])

/-- The first part of an entry to STARTING, before its two tests (R59 step 1, R49, R52). -/
def State.begunStarting (s : State) : State :=
  { (s.moveSession .starting).silence with
    speed := (s.moveSession .starting).silence.speed.start, startupTimer := some (after s.clock startupPeriod) }

/-- The three outcomes of an entry to STARTING (R59). -/
theorem State.enterStarting_cases (s : State) :
    s.enterStarting =
      if s.session.endConfirmed then s.begunStarting.enterReturning .endMark
      else if s.tracker.state = .lost then s.begunStarting.enterStalled .tracking
      else s.begunStarting := by
  have h1 : s.begunStarting.session.endConfirmed = s.session.endConfirmed := by simp [State.begunStarting]
  have h2 : s.begunStarting.tracker = s.tracker := by simp [State.begunStarting]
  have h3 : (s.moveSession .starting).silence.clock = s.clock := by simp
  have h : s.enterStarting = if s.begunStarting.session.endConfirmed then s.begunStarting.enterReturning .endMark
      else if s.begunStarting.tracker.state = .lost then s.begunStarting.enterStalled .tracking else s.begunStarting := by
    unfold State.enterStarting State.begunStarting
    dsimp only
    rw [h3]
  rw [h, h1, h2]

/-- What the first part of an entry to STARTING leaves (R49, R52, R59). -/
theorem State.begunStarting_spec (s : State) :
    s.begunStarting.session = { s.session with state := .starting, causes := CauseSet.empty } ∧
      Raises s s.begunStarting 0x01#8 ∧ Silences s s.begunStarting ∧
      s.begunStarting.startupTimer = some (s.clock + 3000000#32) ∧
      s.begunStarting.speed = { s.speed.inactive with lastRatio := 0 } ∧
      s.begunStarting.stallTimer = if s.session.state = .playing then none else s.stallTimer := by
  refine ⟨by simp [State.begunStarting], ?_, ?_, rfl, ?_, by simp [State.begunStarting]⟩
  · exact (s.moveSession_raises .starting).keep (by simp [State.begunStarting]) (by simp [State.begunStarting])
      (by simp [State.begunStarting])
  · refine Silences.of_same (s := s) (u := s.moveSession .starting) ?_ (by simp) (by simp) (by simp) (by simp) (by simp) (by simp)
      (by simp) (by simp)
    exact (State.silence_silences _).keep rfl rfl rfl rfl rfl rfl rfl
  · simp [State.begunStarting, Speed.start, Speed.idle, Speed.inactive, SessionState.isRunning]

/-! ## Through a request's frame and its reply -/

theorem Silences.heard {s t : State} {h : Head} (hs : Silences (s.heard h) t) : Silences s t := by
  exact hs.of_same (by simp) (by simp) (by simp) (by simp) (by simp) (by simp) (by simp) (by simp)
theorem StopsRunning.heard {s t : State} {h : Head} (hs : StopsRunning (s.heard h) t) : StopsRunning s t := by
  refine ⟨?_, ?_, ?_⟩ <;> simp [hs.startupTimer, hs.stallTimer, hs.speed]
theorem Silences.answer {s t : State} (hs : Silences s t) (l r) : Silences s (t.answer l r) := hs.keep (by simp) (by simp) (by simp) (by simp) (by simp) (by simp) (by simp)
theorem StopsRunning.answer {s t : State} (hs : StopsRunning s t) (l r) : StopsRunning s (t.answer l r) := hs.keep (by simp) (by simp) (by simp)

end Sys2Proof.Machine
end

