-- ==== Sys2Proof/Laws/Drive.lean ====
section
/-! SUPPORT. What a drive loss, a fault found at a reset, a written key record and SET_CONSOLE_PEDALS do. -/

namespace Sys2Proof.Machine

/-! ## Drive loss -/

/-- The part of a drive loss before the session acts (R148, R162). -/
def State.driveCut (s : State) : State := ({ s with drive := { s.drive with actEn := false } } : State).flushQueue.releaseKeys.setSostenuto .off

theorem State.driveLoss_eq (s : State) (c) : s.driveLoss c = if s.session.state ∈ [SessionState.starting, .playing, .stalled] then s.driveCut.enterPaused (some c) else s.driveCut := by
  unfold State.driveLoss
  dsimp only
  have : s.driveCut.session = s.session := by simp [State.driveCut]
  show (match s.driveCut.session.state with
    | .starting | .playing | .stalled => s.driveCut.enterPaused (some c)
    | .noRoll | .loaded | .paused | .returning => s.driveCut) = _
  rw [this]
  cases s.session.state <;> simp

theorem State.key_driveCut (s : State) (k) : s.driveCut.key k = { s.key k with phase := s.cutPhase k } := by
  have : s.driveCut.key k = ({ s with drive := { s.drive with actEn := false } } : State).flushQueue.releaseKeys.key k := by
    apply State.key_congr; simp [State.driveCut]
  rw [this, State.key_releaseKeys, State.key_flushQueue]; rfl

/-- Everything a drive loss does. -/
theorem State.driveLoss_spec (s : State) (c) : LosesDrive s (s.driveLoss c) c ∧ Raises s (s.driveLoss c) (if s.session.state ∈ [SessionState.starting, .playing, .stalled] then 0x01#8 else 0#8) ∧
   (s.driveLoss c).drive = { s.drive with actEn := false } := by
  rw [State.driveLoss_eq]
  obtain ⟨c1,c2,c3,c4⟩ := s.driveCut.enterPaused_spec (some c)
  have lr : Raises s s.driveCut 0#8 := Raises.none (by simp [State.driveCut]) (by simp [State.driveCut]) (by simp [State.driveCut])
  have ls : s.driveCut.session = s.session := by simp [State.driveCut]
  have lp : s.driveCut.pedals = { s.pedals with sostenuto := .off } := by simp [State.driveCut, State.setSostenuto]
  have lc : s.driveCut.console = s.console := by simp [State.driveCut]
  have lsh : s.driveCut.shaping = s.shaping := by simp [State.driveCut]
  refine ⟨⟨?_, ?_, ?_⟩, ?_, ?_⟩
  · intro h
    rw [if_pos h]
    refine ⟨?_, ?_, ?_⟩
    · have hs : strikeEntries ({ s with pedals := { s.pedals with sostenuto := .off } } : State).queue = strikeEntries s.queue := rfl
      refine ⟨c3.queue, ?_, c3.slots, ?_, c3.struckKeys, ?_, ?_⟩
      · rw [c3.strikes]; simp [State.cancelledStrikes, State.driveCut, State.flushQueue, strikeEntries]
      · intro k
        rw [c3.keys, State.cutPhase, State.key_driveCut]
        have hp : s.driveCut.keyCal k = s.keyCal k := State.keyCal_congr (by simp [State.driveCut]) k
        have hc : s.driveCut.clock = s.clock := by simp [State.driveCut]
        simp only [hp, hc]
        show _ = { s.key k with phase := s.cutPhase k, owner := none }
        simp only [State.cutPhase]
        cases (s.key k).phase <;> rfl
      · rw [c3.pedals]; simp [State.silentPedals, lp, lc]
      · rw [c3.shaping]; simp only [State.shapingFor, State.silentPedals, lp, lc, lsh]; rfl
    · refine ⟨?_, ?_, ?_⟩
      · rw [c4.startupTimer, ls]; simp [State.driveCut]
      · rw [c4.stallTimer, ls]; simp [State.driveCut]
      · rw [c4.speed, ls]; simp [State.driveCut]
    · rw [c1, ls]
  · intro h
    rw [if_neg h]
    refine ⟨?_, ?_, ?_, s.key_driveCut, ?_, ?_, ?_, ?_, ?_, ?_, ?_⟩
    all_goals simp [State.driveCut, State.cancelledStrikes, State.flushQueue]
    all_goals rfl
  · split
    · apply State.eq_of_fields <;> simp [State.driveCut]
    · apply State.eq_of_fields <;> simp [State.driveCut]
  · split
    · simpa using lr.trans c2
    · exact lr
  · split <;> simp [State.driveCut]

/-- A drive loss behind a change of links and drive stage. -/
theorem LosesDrive.of {s u t : State} {c} (h : LosesDrive u t c) (hu : { u with linkT := s.linkT, linkC := s.linkC, linkS := s.linkS, drive := s.drive } = s) : LosesDrive s t c := by
  have e : s.session = u.session ∧ s.queue = u.queue ∧ s.strikes = u.strikes ∧ s.slots = u.slots ∧ s.keys = u.keys ∧ s.clock = u.clock ∧ s.calibration = u.calibration ∧ s.pedals = u.pedals
     ∧ s.struckKeys = u.struckKeys ∧ s.shaping = u.shaping ∧ s.speed = u.speed ∧ s.stallTimer = u.stallTimer ∧ s.startupTimer = u.startupTimer ∧ s.console = u.console := by
    rw [← hu]; simp
  obtain ⟨e1,e2,e3,e4,e5,e6,e7,e8,e9,e10,e11,e12,e13,e14⟩ := e
  have hk : ∀ k, s.key k = u.key k := State.key_congr e5
  have hcut : ∀ k, s.cutPhase k = u.cutPhase k := by
    intro k; simp only [State.cutPhase, hk, State.keyCal_congr e7, e6]
  constructor
  · rw [e1]; intro hm
    obtain ⟨a,b,c⟩ := h.paused hm
    refine ⟨?_, ?_, ?_⟩
    · exact a.of_same (by simp [e2]) (by simp [e3]) (by simp [e5]) (by simp [e6]) (by simp [e7]) (by simp [e8]) (by simp [e14]) (by simp [e10])
    · exact ⟨by rw [b.startupTimer, e1, e13], by rw [b.stallTimer, e1, e12], by rw [b.speed, e1, e11]⟩
    · exact c
  · rw [e1]; intro hm
    have := h.unmoved hm
    simp only [hk, hcut, e2, e3, e8, e9, e10, e11, e12, e13, State.cancelledStrikes] at this ⊢
    exact this
  · have := h.others
    rw [← hu]
    have h2 := congrArg (fun v : State => { v with linkT := s.linkT, linkC := s.linkC, linkS := s.linkS, drive := s.drive }) this
    simpa using h2

/-! ## Resets, records, pedals -/

/-- On a part at rest an active fault input found at a reset is latched and raised, and nothing else changes (R168, R189, R190). -/
theorem State.faultAtReset_quiet (v : State) (hs : v.session.state = .noRoll) (hq : v.queue = []) (hsl : v.slots = [])
    (hk : ∀ k, ∃ r, (v.key k).phase = .idle r) (hp : v.pedals.sostenuto = .off) (ha : v.drive.actEn = false) :
    v.faultAtReset =
      if v.drive.faultInput then { v.raise .fault with drive := { v.drive with faultLatch := true } } else v := by
  unfold State.faultAtReset
  split
  · unfold State.faultEffects
    dsimp only
    rw [State.driveLoss_eq, if_neg (by simp [hs])]
    apply State.eq_of_fields
    all_goals try (simp [State.driveCut, State.flushQueue, State.setSostenuto, State.raise, hq, hsl, ha, strikeEntries]; done)
    · apply State.keys_ext
      intro k
      rw [State.key_driveCut]
      obtain ⟨r, hr⟩ := hk k
      have e : ∀ w : State, w.keys = v.keys → w.key k = v.key k := fun w h => State.key_congr h k
      rw [e _ (by simp)]
      have hc : (({ v with drive := { v.drive with faultLatch := true } } : State).raise .fault).cutPhase k = (v.key k).phase := by
        have hkey := e (({ v with drive := { v.drive with faultLatch := true } } : State).raise .fault) (by simp)
        simp only [State.cutPhase, hkey, hr]
      rw [hc]
      exact (e _ (by simp)).symm
    · simp [State.driveCut, State.setSostenuto]; rw [← hp]
  · rfl

theorem State.keyCal_writeKeyCal (s : State) (k j : Key) (c : KeyCal) : (s.writeKeyCal k c).keyCal j = if j = k then c else s.keyCal j := by
  unfold State.writeKeyCal State.keyCal
  by_cases h : j = k
  · subst j; simp
  · have : (k : Nat) ≠ j := fun he => h (Fin.ext he.symm)
    simp [h, Vector.getElem_set_ne _ _ this]

/-- Pedals and shaping after SET_CONSOLE_PEDALS (R154, R156, R160). -/
theorem State.setConsolePedals_spec (v : State) (d : Nat) (so su : Bool) :
    (v.setConsolePedals d so su).pedals =
      { v.pedals with
        consoleDamper := clamp 0 127 d, consoleSoft := so, consoleSostenuto := su
        mergedDamper := mergePosition v.console.mode v.pedals.rollDamper (clamp 0 127 d)
        mergedSoft := mergePosition v.console.mode v.pedals.rollSoft (requestOf so)
        sostenuto := if su = v.pedals.consoleSostenuto then v.pedals.sostenuto
          else if su then (if v.drive.actEn then .pullIn (after v.clock pullInTime) else v.pedals.sostenuto) else .off } ∧
    (v.setConsolePedals d so su).shaping = v.shapingFor (mergePosition v.console.mode v.pedals.rollDamper (clamp 0 127 d))
        (mergePosition v.console.mode v.pedals.rollSoft (requestOf so)) := by
  unfold State.setConsolePedals
  dsimp only
  generalize hX : ({ v with pedals := { v.pedals with consoleDamper := clamp 0 127 d, consoleSoft := so, consoleSostenuto := su } } : State) = X
  have hp : X.reformMerge.pedals = _ := X.reformMerge_pedals
  have hsh := X.reformMerge_shaping
  subst hX
  rw [State.shapingFor] at hsh
  by_cases hch : su = v.pedals.consoleSostenuto
  · simp only [hch, ne_eq, not_true, if_false, if_true]
    constructor
    · simp [hch] at hp; rw [hp]; rfl
    · simp [hch] at hsh; rw [hsh]; rfl
  · simp only [hch, ne_eq, not_false_iff, if_true, if_false]
    unfold State.sostenutoChanged
    cases su
    · simp [State.setSostenuto, hp, hsh]; exact ⟨⟨rfl, rfl⟩, rfl⟩
    · simp only [if_true]
      split
      · rename_i ha
        simp at ha
        simp [State.setSostenuto, State.startPullIn, hp, hsh, ha]; exact ⟨⟨rfl, rfl⟩, rfl⟩
      · rename_i ha
        simp at ha
        simp [hp, hsh, ha]; exact ⟨⟨rfl, rfl⟩, rfl⟩

end Sys2Proof.Machine
end

