-- ==== Sys2Proof/Laws/Layout.lean ====
section
/-! SUPPORT. The byte layout: fields written least significant byte first read back (R182). -/

namespace Sys2Proof

@[simp] theorem leBytes_length (n v : Nat) : (leBytes n v).length = n := by
  induction n generalizing v with
  | zero => rfl
  | succ n ih => simp [leBytes, ih]

/-- The bytes of a number read back as the number, modulo the bytes' capacity. -/
theorem leValue_leBytes (n v : Nat) : leValue (leBytes n v) = v % 256 ^ n := by
  induction n generalizing v with
  | zero => simp [leBytes, leValue, Nat.mod_one]
  | succ n ih =>
    simp only [leBytes, leValue, ih, BitVec.toNat_ofNat]
    have h : 2 ^ 8 = 256 := rfl
    rw [h, Nat.pow_succ, Nat.mul_comm (256 ^ n), Nat.mod_mul]

theorem bytes16_cons (v : BitVec 16) (vs : List (BitVec 16)) : bytes16 (v :: vs) = leBytes 2 v.toNat ++ bytes16 vs := rfl

@[simp] theorem bytes16_nil : bytes16 [] = [] := rfl

@[simp] theorem bytes16_length (vs : List (BitVec 16)) : (bytes16 vs).length = 2 * vs.length := by
  induction vs with
  | nil => rfl
  | cons v vs ih => rw [bytes16_cons, List.length_append, leBytes_length, ih, List.length_cons]; omega

/-- A field after a prefix of bytes is read at the prefix's length. -/
theorem field_append (p q : List Byte) (off len : Nat) (h : off = p.length) : field (p ++ q) off len = leValue (q.take len) := by
  subst h; simp [field]

/-- A field that the bytes of a number fill reads as the number, modulo its capacity. -/
theorem field_leBytes (p q : List Byte) (off n v : Nat) (h : off = p.length) :
    field (p ++ (leBytes n v ++ q)) off n = v % 256 ^ n := by
  rw [field_append _ _ _ _ h]
  have : (leBytes n v ++ q).take n = leBytes n v := by
    have hl := leBytes_length n v
    rw [List.take_append_of_le_length (by omega), List.take_of_length_le (by omega)]
  rw [this, leValue_leBytes]

/-- A single byte reads as itself. -/
theorem field8_byte (p q : List Byte) (b : Byte) (off : Nat) (h : off = p.length) : field8 (p ++ b :: q) off = b := by
  subst h; simp [field8, field, leValue]

theorem field16_value (p q : List Byte) (v : BitVec 16) (off : Nat) (h : off = p.length) :
    field16 (p ++ (leBytes 2 v.toNat ++ q)) off = v := by
  rw [field16, field_leBytes _ _ _ _ _ h]
  apply BitVec.eq_of_toNat_eq
  simp
  exact v.isLt

theorem field32_value (p q : List Byte) (v : BitVec 32) (off : Nat) (h : off = p.length) :
    field32 (p ++ (leBytes 4 v.toNat ++ q)) off = v := by
  rw [field32, field_leBytes _ _ _ _ _ h]
  apply BitVec.eq_of_toNat_eq
  simp
  exact v.isLt

/-- A list of two-byte values after a prefix reads back value by value. -/
theorem field16_bytes16 (p q : List Byte) (vs : List (BitVec 16)) (off j : Nat) (h : off = p.length) (hj : j < vs.length) :
    field16 (p ++ (bytes16 vs ++ q)) (off + 2 * j) = vs[j] := by
  induction vs generalizing p off j with
  | nil => simp at hj
  | cons v vs ih =>
    rw [bytes16_cons, List.append_assoc]
    match j with
    | 0 => simpa using field16_value p (bytes16 vs ++ q) v off h
    | j + 1 =>
      have := ih (p ++ leBytes 2 v.toNat) (off + 2) j (by simp [h]) (by simpa using hj)
      rw [List.append_assoc] at this
      rw [show off + 2 * (j + 1) = off + 2 + 2 * j by omega, this]
      simp

/-- The values of a vector laid out after a prefix read back as the vector. -/
theorem fields16_bytes16 {n : Nat} (p q : List Byte) (v : Vector (BitVec 16) n) (off : Nat) (h : off = p.length) :
    fields16 (p ++ (bytes16 v.toList ++ q)) off n = v := by
  apply Vector.ext
  intro j hj
  simp only [fields16, Vector.getElem_ofFn]
  rw [field16_bytes16 p q v.toList off j h (by simpa using hj)]
  simp

end Sys2Proof
end

