-- ==== Sys2Proof/Laws/Figures.lean ====
section
/-! SUPPORT. The small lemmas of the arithmetic: clamps, interpolation, strike figures, channel steps, heat, the bytes and keys of
requests. -/

namespace Sys2Proof.Machine

theorem clamp_eq (lo hi x : Nat) (h : lo ≤ hi) : clamp lo hi x = max lo (min hi x) := by
  unfold clamp; split <;> (try split) <;> omega

theorem clampInt_eq (lo hi x : Int) (h : lo ≤ hi) : clampInt lo hi x = max lo (min hi x) := by
  unfold clampInt; split <;> (try split) <;> omega

theorem reached_iff {now d : Time} : reached now d = true ↔ (now - d).toNat < 2147483648 := by
  unfold reached; exact decide_eq_true_iff

theorem reached_of_lt {now d : Time} (h : (now - d).toNat < 2147483648) : reached now d = true := reached_iff.2 h

theorem not_reached_of_le {now d : Time} (h : 2147483648 ≤ (now - d).toNat) : reached now d = false := by
  unfold reached; exact decide_eq_false (by omega)

theorem key?_of_lt {b : BitVec 8} {k : Key} (h : b.toNat = k.val) : key? b = some k := by
  unfold key?; rw [dif_pos (by omega)]; exact congrArg some (Fin.ext h)

theorem key?_of_ge {b : BitVec 8} (h : 88 ≤ b.toNat) : key? b = none := by unfold key?; rw [dif_neg (by omega)]

theorem leBytes_two_mod (v : Nat) : leBytes 2 (v % 65536) = leBytes 2 v := by
  have low : BitVec.ofNat 8 (v % 65536) = BitVec.ofNat 8 v := by apply BitVec.eq_of_toNat_eq; simp
  have high : BitVec.ofNat 8 (v % 65536 / 256) = BitVec.ofNat 8 (v / 256) := by
    apply BitVec.eq_of_toNat_eq; simp only [BitVec.toNat_ofNat]; omega
  simp only [leBytes, low, high]

theorem bytes16_ofNat (l : List Nat) : bytes16 (l.map (BitVec.ofNat 16)) = l.flatMap (leBytes 2) := by
  unfold bytes16
  rw [List.flatMap_map]
  congr 1
  funext a
  simp [leBytes_two_mod]

/-- The interpolated value as the manual writes it, with no truncation at 0 (R123, R157). -/
theorem interpolate_value {n : Nat} (v : Vector Nat n) (i f parts : Nat) (hf : f ≤ parts) (hp : 0 < parts) :
   ((interpolate v i f parts : Nat) : Int) = point v i + ((point v (i + 1) : Int) - point v i) * f / parts := by
  unfold interpolate floorDiv
  rw [Int.fdiv_eq_ediv_of_nonneg _ (by omega)]
  rw [Int.toNat_of_nonneg]
  generalize (point v i) = a
  generalize (point v (i+1)) = b
  have h1 : -(a:Int) * parts ≤ ((b:Int) - a) * f := by
    have h2 : (0:Int) ≤ (b:Int) * f := by positivity
    have h3 : (a:Int) * f ≤ a * parts := by gcongr
    nlinarith
  have h4 : -(a:Int) ≤ ((b:Int) - a) * f / parts := by
    rw [Int.le_ediv_iff_mul_le (by omega)]; exact h1
  omega

/-- The figures the machine computes for a strike are those of R123 and R124. -/
theorem State.strikeFigures (s : State) (k : Key) (i : Nat) : StrikeFigures s k i (s.strikeWidth k i) (s.strikeFlight k i) := by
  refine ⟨_, _, (s.keyCal k).baseWidth i, rfl, rfl, ?_, ?_, ?_⟩
  · exact interpolate_value _ _ _ 16 (by omega) (by omega)
  · exact interpolate_value _ _ _ 16 (by omega) (by omega)
  · simp only [State.strikeWidth, protectedWidth]
    rw [clamp_eq _ _ _ (by omega)]

/-- A step of a channel in terms of its distance from the target (R85). -/
theorem Channel.step_eq_approached (c : Channel) (r : Nat) : c.step r = c.approached r := by
  unfold Channel.step Channel.approached increment truncDiv
  rcases Nat.lt_trichotomy c.level c.target with h | h | h
  · have e : ((c.target : Int) - c.level) = ((c.target - c.level : Nat) : Int) := by omega
    have q : Int.tdiv (((c.target : Int) - c.level) * r) 256 = (((c.target - c.level) * r / 256 : Nat) : Int) := by
      rw [e]; norm_cast
    simp only [Nat.cast_ofNat, q, if_pos h]
    congr 1
    by_cases z : (((c.target - c.level) * r / 256 : Nat) : Int) = 0
    · rw [if_pos z, if_pos (by omega)]; omega
    · rw [if_neg z]; omega
  · simp [h]
  · have e : ((c.target : Int) - c.level) = -((c.level - c.target : Nat) : Int) := by omega
    have q : Int.tdiv (((c.target : Int) - c.level) * r) 256 = -(((c.level - c.target) * r / 256 : Nat) : Int) := by
      rw [e, Int.neg_mul, Int.neg_tdiv]; norm_cast
    simp only [Nat.cast_ofNat, q, if_neg (by omega : ¬ c.level < c.target), if_pos h]
    congr 1
    by_cases z : -(((c.level - c.target) * r / 256 : Nat) : Int) = 0
    · rw [if_pos z, if_neg (by omega), if_pos (by omega)]; omega
    · rw [if_neg z]; omega

/-- A step never passes the target (R85). -/
theorem Channel.approached_between (c : Channel) (r : Nat) (h : r ≤ 256) : min c.level c.target ≤ (c.approached r).level ∧ (c.approached r).level ≤ max c.level c.target := by
  unfold Channel.approached
  dsimp only
  have key : ∀ d : Nat, d * r / 256 ≤ d := by
    intro d
    apply Nat.div_le_of_le_mul
    rw [Nat.mul_comm 256]; exact Nat.mul_le_mul_left d h
  have := key (c.target - c.level)
  have := key (c.level - c.target)
  split <;> (try split) <;> omega

/-- The condition the machine evaluates is that of the table of R173. -/
theorem Thermal.evaluate_moves (t : Thermal) (h : Nat) : ThermalMoves t h (t.evaluate h) := by
  unfold ThermalMoves Thermal.evaluate
  refine ⟨?_, ?_, ?_⟩ <;> rintro rfl <;> simp only <;> (repeat' split) <;> first | rfl | omega

end Sys2Proof.Machine
end

