-- ==== Sys2Proof/Laws/Entries.lean ====
section
/-! SUPPORT. The small lemmas of the action queue: placing and inserting with room, the entry to perform next, the earliest-inserted
entry, the first ready strike. -/

namespace Sys2Proof.Machine

theorem placeEntry_strikes (e : Entry) (q : List Entry) : strikeEntries (placeEntry e q) = strikeEntries (e :: q) := by
  induction q with
  | nil => rfl
  | cons x xs ih =>
    unfold placeEntry; split
    · simp only [strikeEntries, List.countP_cons] at *; omega
    · rfl

theorem placeEntry_length (e : Entry) (q : List Entry) : (placeEntry e q).length = q.length + 1 := by
  induction q with
  | nil => rfl
  | cons x xs ih =>
    unfold placeEntry; split
    · simp [ih]
    · rfl

theorem mem_placeEntry {x e : Entry} {q : List Entry} : x ∈ placeEntry e q ↔ x = e ∨ x ∈ q := by
  induction q with
  | nil => simp [placeEntry]
  | cons y ys ih =>
    unfold placeEntry; split
    · simp only [List.mem_cons, ih]; tauto
    · simp

/-- With room in the queue a RELEASE, PEDAL or END entry is placed (R130). -/
theorem State.insertOther_room {s : State} {due a} (h : s.queue.length < 96) :
   s.insertOther due a = { s with queue := placeEntry ⟨due, s.nextSeq, a⟩ s.queue, nextSeq := s.nextSeq + 1 } := by
  unfold State.insertOther
  dsimp only
  rw [if_neg (by simp [State.takeSeq, queueCapacity]; omega)]
  rfl

/-- With room for it a STRIKE entry is placed (R130). -/
theorem State.insertStrike_room {s : State} {due st} (h : s.queue.length < 96) (h2 : strikeEntries s.queue < 80) :
   s.insertStrike due st = { s with queue := placeEntry ⟨due, s.nextSeq, .strike st⟩ s.queue, nextSeq := s.nextSeq + 1 } := by
  unfold State.insertStrike
  dsimp only
  rw [if_neg (by simp [State.takeSeq, queueCapacity, strikeCapacity]; omega)]
  rfl

/-- The entry to perform next, from the split of the queue at it (R133). -/
theorem State.performsNext_next {s : State} {pre e post} (h : s.performsNext pre e post) : s.nextToPerform = some e ∧ s.queue.erase e = pre ++ post := by
  obtain ⟨h1, h2, h3, h4⟩ := h
  have hp : ∀ x ∈ pre, (x.ripe s.clock && !x.isStrike) = false := by
    intro x hx
    rcases h4 x hx with h | h
    · simp [h]
    · simp [Entry.ripe, not_reached_of_le h]
  have he : (e.ripe s.clock && !e.isStrike) = true := by simp [Entry.ripe, reached_of_lt h3, h2]
  constructor
  · unfold State.nextToPerform
    rw [h1, List.find?_append]
    have : List.find? (fun e => e.ripe s.clock && !e.isStrike) pre = none := by
      rw [List.find?_eq_none]; intro x hx; rw [hp x hx]; simp
    rw [this, List.find?_cons, he]; rfl
  · rw [h1, List.erase_append_right]
    · simp
    · intro hm; have := hp e hm; rw [he] at this; cases this

/-- The next entry leaves the queue and is performed (R133). -/
theorem State.performNext_of {s : State} {pre e post} (h : s.performsNext pre e post) {kind : Action → Bool} (hk : kind e.action = true) :
   s.performNext kind = ({ s with queue := pre ++ post } : State).perform e.action e.seq := by
  obtain ⟨h1, h2⟩ := State.performsNext_next h
  unfold State.performNext
  rw [h1]
  simp only [hk, if_true, h2]

/-- Folding for the earliest-inserted entry finds an entry inserted before all others. -/
theorem foldl_earliest (first : Entry) (l : List Entry) (b : Entry) (hb : b = first ∨ (insertedBefore first.seq b.seq = true ∧ first ∈ l))
  (h : ∀ x ∈ l, x ≠ first → insertedBefore first.seq x.seq = true) :
  l.foldl (fun best x => if insertedBefore x.seq best.seq then x else best) b = first := by
  have asym : ∀ x : Entry, insertedBefore first.seq x.seq = true → insertedBefore x.seq first.seq = false := by
    intro x hx
    simp only [insertedBefore, Bool.and_eq_true, decide_eq_true_eq, Bool.and_eq_false_iff, decide_eq_false_iff_not] at *
    bv_omega
  induction l generalizing b with
  | nil => simpa using hb
  | cons x xs ih =>
    simp only [List.foldl_cons]
    apply ih
    · by_cases hx : x = first
      · subst hx
        left
        rcases hb with rfl | ⟨hb, _⟩
        · split <;> rfl
        · rw [if_pos hb]
      · have hxf := h x (by simp) hx
        rcases hb with rfl | ⟨hb, hm⟩
        · left; rw [asym x hxf]; simp
        · right
          have hm' : first ∈ xs := by simpa [Ne.symm hx] using hm
          split
          · exact ⟨hxf, hm'⟩
          · exact ⟨hb, hm'⟩
    · intro y hy; exact h y (by simp [hy])

/-- An entry inserted before all others of a list is its earliest-inserted one (R134). -/
theorem earliestInserted_of (l : List Entry) (first : Entry) (hm : first ∈ l) (h : ∀ x ∈ l, x ≠ first → insertedBefore first.seq x.seq = true) :
  earliestInserted l = some first := by
  cases l with
  | nil => simp at hm
  | cons x xs =>
    show some _ = some first
    congr 1
    apply foldl_earliest
    · by_cases hx : x = first
      · exact .inl hx
      · exact .inr ⟨h x (by simp) hx, by simpa [Ne.symm hx] using hm⟩
    · intro y hy; exact h y (by simp [hy])

theorem Entry.strike?_eq_some {x : Entry} {st : Strike} : x.strike? = some st ↔ x.action = .strike st := by
  unfold Entry.strike?; cases x.action <;> simp

/-- Readiness as the arbiter tests it (R137). -/
theorem State.readyAfter_iff (s : State) (ahead : List Entry) (x : Entry) (st : Strike) (hx : x.action = .strike st) :
  s.readyAfter ahead x ↔ (x.ripe s.clock && (s.key st.key).isRested && !ahead.any (fun y => y.isReleaseFor st.key)) = true := by
  unfold State.readyAfter
  simp only [hx, Action.strike.injEq, exists_eq_left', Bool.and_eq_true, Entry.ripe, reached_iff, Bool.not_eq_true', List.any_eq_false, Bool.not_eq_true]
  have : (s.key st.key).isRested = true ↔ (s.key st.key).phase = .idle true := by
    unfold KeyRecord.isRested
    cases (s.key st.key).phase <;> simp
  rw [this, and_assoc]

theorem firstReady_none (s : State) (q ahead : List Entry) (h : ∀ a x b, q = a ++ x :: b → ¬ s.readyAfter (ahead ++ a) x) : firstReady s ahead q = none := by
  induction q generalizing ahead with
  | nil => rfl
  | cons e es ih =>
    have hn := h [] e es rfl
    have ht : firstReady s (ahead ++ [e]) es = none := ih _ (by
      intro a x b he
      have := h (e :: a) x b (by rw [he]; rfl)
      simpa using this)
    unfold firstReady
    cases hs : e.strike? with
    | none => exact ht
    | some st =>
      dsimp only
      rw [if_neg]
      · exact ht
      · rw [← State.readyAfter_iff s ahead e st (Entry.strike?_eq_some.1 hs)]; simpa using hn

theorem firstReady_some (s : State) (pre post ahead : List Entry) (e : Entry) (st : Strike) (he : e.action = .strike st) (hr : s.readyAfter (ahead ++ pre) e)
   (h : ∀ a x b, pre = a ++ x :: b → ¬ s.readyAfter (ahead ++ a) x) : firstReady s ahead (pre ++ e :: post) = some (e, st) := by
  induction pre generalizing ahead with
  | nil =>
    simp only [List.nil_append]
    unfold firstReady
    rw [Entry.strike?_eq_some.2 he]
    dsimp only
    rw [if_pos]
    rw [← State.readyAfter_iff s ahead e st he]; simpa using hr
  | cons x xs ih =>
    have hn := h [] x xs rfl
    have ht : firstReady s (ahead ++ [x]) (xs ++ e :: post) = some (e, st) := ih _ (by simpa using hr) (by
      intro a y b hy
      have := h (x :: a) y b (by rw [hy]; rfl)
      simpa using this)
    simp only [List.cons_append]
    unfold firstReady
    cases hs : x.strike? with
    | none => exact ht
    | some st' =>
      dsimp only
      rw [if_neg]
      · exact ht
      · rw [← State.readyAfter_iff s ahead x st' (Entry.strike?_eq_some.1 hs)]; simpa using hn

end Sys2Proof.Machine
end

