-- ==== Sys2Proof/Laws/Insertions.lean ====
section
/-! SUPPORT. What an insertion into the action queue can do, said once for each: a STRIKE entry, another entry, and a TAKEOVER release
that is performed at once. -/

namespace Sys2Proof.Machine

/-! ## The drop candidate -/

/-- Folding for the drop candidate finds an entry that every other STRIKE entry of the list is louder than, or as loud as and
inserted before. -/
theorem foldl_dropBetter {c : Entry} {b : Strike} (hc : c.action = .strike b) (l : List Entry) (best : Entry)
    (hb : best = c ∨ (c ∈ l ∧ ∃ st, best.action = .strike st ∧
      (b.intensity < st.intensity ∨ (b.intensity = st.intensity ∧ insertedBefore best.seq c.seq = true))))
    (h : ∀ x ∈ l, ∀ st, x.action = .strike st → x ≠ c →
      b.intensity < st.intensity ∨ (b.intensity = st.intensity ∧ insertedBefore x.seq c.seq = true))
    (hs : ∀ x ∈ l, x.isStrike = true) : l.foldl dropBetter best = c := by
  have asym : ∀ x : Entry, insertedBefore x.seq c.seq = true → insertedBefore c.seq x.seq = false := by
    intro x hx
    simp only [insertedBefore, Bool.and_eq_true, decide_eq_true_eq, Bool.and_eq_false_iff, decide_eq_false_iff_not] at *
    bv_omega
  have irrefl : insertedBefore c.seq c.seq = false := by simp [insertedBefore]
  have hcs : c.strike? = some b := Entry.strike?_eq_some.2 hc
  induction l generalizing best with
  | nil => simpa using hb
  | cons x xs ih =>
    simp only [List.foldl_cons]
    refine ih _ ?_ (fun y hy => h y (by simp [hy])) (fun y hy => hs y (by simp [hy]))
    obtain ⟨sx, hx⟩ : ∃ st, x.action = .strike st := by
      have := hs x (by simp)
      unfold Entry.isStrike at this
      cases hxa : x.action <;> simp_all
    have hxs := Entry.strike?_eq_some.2 hx
    rcases hb with rfl | ⟨hm, sb, hba, hle⟩
    · left
      unfold dropBetter
      rw [hcs, hxs]
      dsimp only
      by_cases hxc : x = best
      · subst hxc; simp
      · rcases h x (by simp) sx hx hxc with hlt | ⟨heq, hin⟩
        · rw [if_neg (by omega), if_neg (by omega)]
        · rw [if_neg (by omega), if_neg (by rw [asym x hin]; simp)]
    · have hbs := Entry.strike?_eq_some.2 hba
      unfold dropBetter
      rw [hbs, hxs]
      dsimp only
      by_cases hxc : x = c
      · subst hxc
        left
        rw [hx] at hc; injection hc with hc; subst hc
        rcases hle with hlt | ⟨heq, hin⟩
        · rw [if_pos hlt]
        · rw [if_neg (by omega), if_pos ⟨heq, hin⟩]
      · right
        have hmx : c ∈ xs := by simpa [Ne.symm hxc] using hm
        refine ⟨hmx, ?_⟩
        split
        · exact ⟨sx, hx, h x (by simp) sx hx hxc⟩
        · split
          · exact ⟨sx, hx, h x (by simp) sx hx hxc⟩
          · exact ⟨sb, hba, hle⟩

/-- The drop candidate of R131 is the one the machine finds. -/
theorem DropCandidate.found {q : List Entry} {c : Entry} {b : Strike} (h : DropCandidate q c b) : dropCandidate q = some c := by
  obtain ⟨hm, hc, hl⟩ := h
  have hcs : c.isStrike = true := by simp [Entry.isStrike, hc]
  have hmf : c ∈ q.filter Entry.isStrike := List.mem_filter.2 ⟨hm, hcs⟩
  have hall : ∀ x ∈ q.filter Entry.isStrike, x ∈ q ∧ x.isStrike = true := fun x hx => List.mem_filter.1 hx
  unfold dropCandidate
  cases hf : q.filter Entry.isStrike with
  | nil => rw [hf] at hmf; cases hmf
  | cons e es =>
    rw [hf] at hmf hall
    dsimp only
    congr 1
    refine foldl_dropBetter hc es e ?_ (fun x hx st hst hne => hl x (hall x (by simp [hx])).1 st hst hne)
      (fun x hx => (hall x (by simp [hx])).2)
    by_cases he : e = c
    · exact .inl he
    · right
      refine ⟨by simpa [Ne.symm he] using hmf, ?_⟩
      have hes := hall e (by simp)
      unfold Entry.isStrike at hes
      cases hea : e.action with
      | strike st => exact ⟨st, rfl, hl e hes.1 st hea he⟩
      | release k t => rw [hea] at hes; simp at hes
      | takeover k t => rw [hea] at hes; simp at hes
      | pedal p v => rw [hea] at hes; simp at hes
      | endMark => rw [hea] at hes; simp at hes

/-- A queue without a STRIKE entry has no drop candidate. -/
theorem dropCandidate_none {q : List Entry} (h : ∀ x ∈ q, x.isStrike = false) : dropCandidate q = none := by
  unfold dropCandidate
  have : q.filter Entry.isStrike = [] := by
    rw [List.filter_eq_nil_iff]
    intro x hx
    simp [h x hx]
  rw [this]

/-! ## Drops -/

/-- The owner of a dropped strike's key (R104, R131). -/
theorem State.key_clearDroppedOwner (s : State) {c : Entry} {b : Strike} (hc : c.action = .strike b) (k : Key) :
    (s.clearDroppedOwner c).key k =
      if b.releaseAfter = true ∧ k = b.key ∧ (s.key k).owner = some b.owner ∧
        s.queue.any (fun x => x.isStrikeOf k b.owner) = false
      then { s.key k with owner := none } else s.key k := by
  unfold State.clearDroppedOwner
  rw [Entry.strike?_eq_some.2 hc]
  dsimp only
  by_cases hr : b.releaseAfter = true
  · rw [if_pos hr]
    unfold State.clearOwnerOf
    by_cases hk : k = b.key
    · subst hk
      by_cases ho : (s.key b.key).owner = some b.owner ∧ (!s.hasStrikeOf b.key b.owner) = true
      · have h2 := ho.2
        rw [Bool.not_eq_true'] at h2
        unfold State.hasStrikeOf at h2
        rw [if_pos ho, if_pos ⟨hr, rfl, ho.1, h2⟩]
        simp [State.setOwner]
      · rw [if_neg ho, if_neg]
        rintro ⟨-, -, h1, h2⟩
        exact ho ⟨h1, by rw [Bool.not_eq_true']; exact h2⟩
    · have hn : ¬ (b.releaseAfter = true ∧ k = b.key ∧ (s.key k).owner = some b.owner ∧
          s.queue.any (fun x => x.isStrikeOf k b.owner) = false) := fun h => hk h.2.1
      rw [if_neg hn]
      split
      · exact s.key_setKey_other _ hk
      · rfl
  · rw [if_neg hr, if_neg fun h => hr h.1]

/-- Whatever leaves the queue `q`, takes a number, counts a drop and sees to the dropped strike's owner is a drop (R131). -/
theorem Drops.of {s t : State} {b : Strike} {q : List Entry} (e : Entry) (hc : e.action = .strike b)
    (ht : t = (({ s.takeSeq with queue := q } : State).countDrop).clearDroppedOwner e) : Drops s t b q := by
  subst ht
  refine ⟨by simp [State.countDrop, State.raise], by simp [State.countDrop, State.raise, State.takeSeq], ?_, ?_, ?_, ?_⟩
  · simp [State.countDrop, State.raise, State.takeSeq, satAdd_eq_bump]
  · intro l
    have h1 : (({ s.takeSeq with queue := q } : State).countDrop.clearDroppedOwner e).link l =
        ({ s.takeSeq with queue := q } : State).countDrop.link l :=
      State.link_congr (by simp) (by simp) (by simp) l
    rw [h1]
    cases l <;> rfl
  · intro k
    rw [State.key_clearDroppedOwner _ hc]
    rfl
  · apply State.eq_of_fields <;> simp [State.takeSeq]

/-- A strike without the release-after mark that is dropped at its own insertion changes no key (R131 step 3). -/
theorem Drops.own {s : State} {st : Strike} (h : st.releaseAfter = false) : Drops s s.takeSeq.countDrop st s.queue := by
  have := Drops.of (s := s) (b := st) (q := s.queue) (t := _) ⟨0, 0, .strike st⟩ rfl rfl
  have e : (({ s.takeSeq with queue := s.queue } : State).countDrop).clearDroppedOwner ⟨0, 0, .strike st⟩ =
      s.takeSeq.countDrop := by
    unfold State.clearDroppedOwner
    simp only [Entry.strike?, h, Bool.false_eq_true, if_false]
    rfl
  rwa [e] at this

/-! ## The three insertions -/

/-- What the insertion of a STRIKE entry can do (R130, R131). -/
theorem State.insertStrike_spec (s : State) (due : Time) {st : Strike} (h : st.releaseAfter = false) :
    InsertsStrike s (s.insertStrike due st) due st := by
  have full : 96 ≤ s.queue.length ∨ 80 ≤ strikeEntries s.queue →
      (strikeCapacity ≤ strikeEntries s.takeSeq.queue ∨ queueCapacity ≤ s.takeSeq.queue.length) := by
    simp only [State.takeSeq, strikeCapacity, queueCapacity]; omega
  refine ⟨fun h1 h2 => State.insertStrike_room h1 h2, ?_, ?_⟩
  · intro hf c b hc hlt
    have hd : dropCandidate s.takeSeq.queue = some c := hc.found
    unfold State.insertStrike
    dsimp only
    rw [if_pos (full hf), hd]
    dsimp only
    rw [Entry.strike?_eq_some.2 hc.2.1]
    dsimp only
    rw [if_pos hlt]
    exact Drops.of c hc.2.1 rfl
  · intro hf hq
    unfold State.insertStrike
    dsimp only
    rw [if_pos (full hf)]
    rcases hq with ⟨c, b, hc, hle⟩ | hn
    · have hd : dropCandidate s.takeSeq.queue = some c := hc.found
      rw [hd]
      dsimp only
      rw [Entry.strike?_eq_some.2 hc.2.1]
      dsimp only
      rw [if_neg (by omega)]
      exact Drops.own h
    · have hd : dropCandidate s.takeSeq.queue = none := dropCandidate_none hn
      rw [hd]
      exact Drops.own h

/-- A queue without STRIKE entries holds none of any owner. -/
theorem no_strikeOf {q : List Entry} (h : ∀ x ∈ q, x.isStrike = false) (k : Key) (m : Owner) :
    ∀ x ∈ q, x.isStrikeOf k m = false := by
  intro x hx
  have := h x hx
  unfold Entry.isStrikeOf
  cases hs : x.strike? with
  | none => rfl
  | some st => rw [Entry.isStrike, Entry.strike?_eq_some.1 hs] at this; cases this

/-- The phase a performed release leaves (R134, R135). -/
theorem State.releasePhase_eq (s : State) (k : Key) :
    s.releasePhase k = s.setKey k { s.key k with phase := s.releasedPhase k } := by
  unfold State.releasePhase
  congr 1
  rcases hr : s.key k with ⟨phase, owner, idleSince, heat, thermal, strikeCount, lateCount⟩
  cases phase <;> simp [KeyRecord.releasePhase, KeyRecord.release, State.releasedPhase, hr, after]

@[simp] theorem State.setKey_setKey (s : State) (k : Key) (r r' : KeyRecord) : (s.setKey k r).setKey k r' = s.setKey k r' := by
  simp [State.setKey]

/-- A performed PEDAL entry (R152, R156). -/
theorem State.setRollRequest_eq (s : State) (p : Pedal) (v : Nat) : s.setRollRequest p v = s.rollRequested p v := by
  have e1 : s.shapingFor s.pedals.mergedDamper s.pedals.mergedSoft = s.shaping := by simp [State.shapingFor]
  cases p with
  | damper =>
    unfold State.setRollRequest State.rollRequested
    dsimp only
    by_cases h : v = s.pedals.rollDamper
    · subst h
      simp only [if_true, e1]
    · simp only [if_neg h]
      apply State.eq_of_fields <;>
        simp [State.reformDamper_pedals, State.reformDamper_shaping, State.damperMerge, State.shapingFor, pedalTarget]
      rfl
  | soft =>
    unfold State.setRollRequest State.rollRequested
    dsimp only
    by_cases h : v = s.pedals.rollSoft
    · subst h
      simp only [if_true, e1]
    · simp only [if_neg h]
      apply State.eq_of_fields <;>
        simp [State.reformSoft_pedals, State.reformSoft_shaping, State.softMerge, State.shapingFor, pedalTarget]
      rfl

/-- Performing beside a queue without STRIKE entries (R134 to R136). -/
theorem State.perform_spec (s : State) (a : Action) (seq : BitVec 32) (h : ∀ x ∈ s.queue, x.isStrike = false) :
    PerformsAtOnce s (s.perform a seq) a seq := by
  cases a with
  | strike st => rfl
  | pedal p v => exact s.setRollRequest_eq p v
  | release k m =>
    show s.performRelease k m seq = _
    unfold State.performRelease
    by_cases ho : (s.key k).owner = some m
    · rw [if_neg (by simp [ho]), if_pos ho]
      have hf : s.queue.filter (fun e => e.isStrikeOf k m && insertedBefore e.seq seq) = [] := by
        rw [List.filter_eq_nil_iff]
        intro x hx
        simp [no_strikeOf h k m x hx]
      rw [hf]
      show (s.releasePhase k).clearOwnerOf k m = _
      rw [s.releasePhase_eq]
      unfold State.clearOwnerOf
      rw [if_pos]
      · simp [State.setOwner]
      · refine ⟨by simp [ho], ?_⟩
        rw [Bool.not_eq_true', State.hasStrikeOf, List.any_eq_false]
        intro x hx
        simp [no_strikeOf h k m x hx]
    · rw [if_pos ho, if_neg ho]
  | takeover k m =>
    show s.performTakeover k m seq = _
    unfold State.performTakeover
    dsimp only
    have hm : s.queue.map (fun e => if e.isStrikeOf k m && insertedBefore e.seq seq then e.marked else e) = s.queue := by
      conv => rhs; rw [← List.map_id s.queue]
      refine List.map_congr_left fun x hx => ?_
      simp [no_strikeOf h k m x hx]
    rw [hm, State.releasePhase_eq]
    rfl
  | endMark =>
    intro hp
    show EndsPerformance s s.performEnd
    unfold State.performEnd
    rw [if_pos hp]
    obtain ⟨h1, h2, h3, h4, h5⟩ := s.enterReturning_spec .endMark
    exact ⟨h2, h3, h4, h1, h5, by apply State.eq_of_fields <;> simp⟩

/-- What the insertion of a RELEASE, PEDAL or END entry can do (R130, R132). -/
theorem State.insertOther_spec (s : State) (due : Time) (a : Action) : InsertsOther s (s.insertOther due a) due a := by
  refine ⟨fun h => State.insertOther_room h, ?_, ?_⟩
  · intro hf c b hc
    have hd : dropCandidate s.takeSeq.queue = some c := hc.found
    unfold State.insertOther
    dsimp only
    rw [if_pos (by simpa [State.takeSeq, queueCapacity] using hf), hd]
    exact Drops.of c hc.2.1 rfl
  · intro hf hn
    have hd : dropCandidate s.takeSeq.queue = none := dropCandidate_none hn
    unfold State.insertOther
    dsimp only
    rw [if_pos (by simpa [State.takeSeq, queueCapacity] using hf), hd]
    exact State.perform_spec s.takeSeq a s.nextSeq hn

/-- Marking an entry makes no release of it and unmakes none. -/
theorem Entry.marked_action (x : Entry) (k : Key) (m : Owner) :
    (x.marked.action == .release k m) = (x.action == .release k m) ∧ x.marked.seq = x.seq := by
  unfold Entry.marked
  cases hx : x.action <;> simp [hx]

/-- A performed takeover: first the displaced owner's releases leave, or first its strikes are marked, is one and the same
(R135). -/
theorem State.performTakeover_eq (s : State) (k : Key) (m : Owner) (seq : BitVec 32) :
    s.performTakeover k m seq =
      ({ s with
        queue := (s.queue.filter fun x => !(x.action == .release k m && insertedBefore x.seq seq)).map
          fun x => if x.isStrikeOf k m && insertedBefore x.seq seq then x.marked else x } : State).setKey k
        { s.key k with phase := s.releasedPhase k } := by
  unfold State.performTakeover
  dsimp only
  rw [State.releasePhase_eq]
  have hq : ∀ q : List Entry,
      (q.map (fun e => if e.isStrikeOf k m && insertedBefore e.seq seq then e.marked else e)).filter
        (fun e => !(e.action == .release k m && insertedBefore e.seq seq)) =
      (q.filter fun x => !(x.action == .release k m && insertedBefore x.seq seq)).map
        fun x => if x.isStrikeOf k m && insertedBefore x.seq seq then x.marked else x := by
    intro q
    rw [List.filter_map]
    congr 1
    refine List.filter_congr fun x _ => ?_
    simp only [Function.comp]
    split
    · rw [(x.marked_action k m).1, (x.marked_action k m).2]
    · rfl
  rw [hq]
  rfl

/-- What the insertion of a TAKEOVER release that is performed at once can do (R132, R135, R145 step 1). -/
theorem State.insertPerformed_spec (s : State) (k : Key) (m : Owner) : TakesOverAtOnce s (s.insertPerformed (.takeover k m)) k m := by
  refine ⟨s.takeSeq.makeRoom, ?_, ?_, s.takeSeq.makeRoom.performTakeover_eq k m s.nextSeq⟩
  · intro h
    unfold State.makeRoom
    rcases h with h | h
    · rw [if_neg (by simp [State.takeSeq, queueCapacity]; omega)]; rfl
    · have hd : dropCandidate s.takeSeq.queue = none := dropCandidate_none h
      rw [hd]
      split <;> rfl
  · intro hf c b hc
    have hd : dropCandidate s.takeSeq.queue = some c := hc.found
    unfold State.makeRoom
    rw [if_pos (by simpa [State.takeSeq, queueCapacity] using hf), hd]
    exact Drops.of c hc.2.1 rfl

end Sys2Proof.Machine
end

