-- ==== Sys2Proof/Laws/Lines.lean ====
section
/-! SUPPORT. What an accepted line does before the monitor and the watchdogs, and that no part of a line's handling touches a reply
slot. -/

namespace Sys2Proof.Machine

/-! ## The accepted line -/

theorem State.takeLine_check {s : State} {c : CarriedLine} (h1 : s.intake.state = .accepting) (h2 : s.intake.queue.length < 16) :
  s.takeLine c = s.checkLine c := by
  unfold State.takeLine; rw [h1]; dsimp only; rw [if_neg (by simp [intakeCapacity]; omega)]

theorem carriedLine_stored (a b c : BitVec 16) (d : BitVec 8) (ph) (st pos) : (carriedLine a b c d ph).stored st pos = scanned a b c d ph st pos := by
  simp only [CarriedLine.stored, carriedLine, scanned, storedEdge, storedFlag, Line.mk.injEq, true_and, and_true]
  have edge : ∀ x : BitVec 16, (if 4095 < x.toNat then 4095 else x.toNat) = min x.toNat 4095 := by
    intro x
    by_cases h : 4095 < x.toNat
    · rw [if_pos h]; omega
    · rw [if_neg h]; omega
  have flag : ∀ (x : BitVec 16) (f : Bool),
      (if 4095 < x.toNat then false else f) = (f && decide (x.toNat ≤ 4095)) := by
    intro x f
    by_cases h : 4095 < x.toNat
    · rw [if_pos h, decide_eq_false (by omega), Bool.and_false]
    · rw [if_neg h, decide_eq_true (by omega), Bool.and_true]
  exact ⟨edge b, edge c, flag b _, flag c _⟩

/-- The state with a frame heard and a line joined to the queue (R5, R12). -/
def State.joining (s : State) (h : Head) (line : Line) (d : Nat) : State := { s.heard h with intake := s.intakeWith line d }

theorem State.joined_beginDecode (s : State) (h : Head) (line : Line) (d : Nat) :
  ({ s.heard h with intake := (s.heard h).intake.joined line d } : State).beginDecode = State.joining s h line d := by
  unfold State.beginDecode State.joining
  have hq : (s.heard h).intake = s.intake := by simp
  simp only [Intake.joined, hq]
  split
  · rename_i hh
    simp [State.intakeWith, hh.2, satAdd_eq_bump]
  · rename_i hh
    cases hd : s.intake.decode with
    | none => exact absurd ⟨by simp, hd⟩ hh
    | some d => simp [State.intakeWith, hd, satAdd_eq_bump]; 

/-- A line that the continuity check places is accepted, monitored and watched (R5, R15). -/
theorem exec_scanLine_placed {s : State} {h : Head} {a b c d ph n pos} (ht : s.takes h [.T] 39) (hi : s.intake.state = .accepting)
   (hq : s.intake.queue.length < 16) (hp : s.placesLine a n pos) :
   exec (.scanLine h a b c d ph) s = .next (((State.joining s h (scanned a b c d ph s.clock pos) n).monitorLine ⟨pos, s.clock⟩ s.intake.expected.isNone).watchLine) := by
  rw [exec_scanLine_taken ht, State.takeLine_check (by simpa using hi) (by simpa using hq)]
  congr 1
  unfold State.checkLine
  have hq : (s.heard h).intake = s.intake := by simp
  have hclk : (s.heard h).clock = s.clock := by simp
  rw [hq]
  unfold State.placesLine at hp
  cases he : s.intake.expected with
  | none =>
    rw [he] at hp; obtain ⟨rfl, rfl⟩ := hp
    simp only [State.acceptLine]
    rw [State.joined_beginDecode, carriedLine_stored, hclk]; rfl
  | some e =>
    rw [he] at hp; obtain ⟨rfl, hl, rfl⟩ := hp
    simp only [State.acceptLine]
    rw [if_pos (by simpa [carriedLine, gapLimit] using hl), State.joined_beginDecode, carriedLine_stored, hclk]; rfl

theorem State.joining_fields (s : State) (h : Head) (l n) : (State.joining s h l n).session = s.session ∧ (State.joining s h l n).speed = s.speed ∧ (State.joining s h l n).clock = s.clock
  ∧ (State.joining s h l n).timing = s.timing ∧ (State.joining s h l n).stallTimer = s.stallTimer ∧ (State.joining s h l n).startupTimer = s.startupTimer ∧ (State.joining s h l n).tracker = s.tracker
  ∧ (State.joining s h l n).intake = s.intakeWith l n ∧ (State.joining s h l n).link = (s.heard h).link
  := by simp [State.joining]; funext l; cases l <;> rfl
theorem State.joining_raises (s : State) (h : Head) (l n) : Raises (s.heard h) (State.joining s h l n) 0#8 := Raises.none rfl rfl rfl

/-! ## Reply slots -/

theorem Raises.slot {s t : State} {k} (h : Raises s t k) (l) : (t.link l).slot = (s.link l).slot := by rw [h l]

/-- Every link's reply slot stands. -/
def KeepsSlots (s t : State) : Prop := ∀ l, (t.link l).slot = (s.link l).slot
theorem KeepsSlots.refl (s) : KeepsSlots s s := fun _ => rfl
theorem KeepsSlots.trans {s t u} (h : KeepsSlots s t) (h' : KeepsSlots t u) : KeepsSlots s u := fun l => (h' l).trans (h l)
theorem KeepsSlots.raise (s : State) (e) : KeepsSlots s (s.raise e) := fun l => by simp
theorem KeepsSlots.same {s t : State} (h1 : t.linkT = s.linkT) (h2 : t.linkC = s.linkC) (h3 : t.linkS = s.linkS) : KeepsSlots s t := fun l => by rw [State.link_congr h1 h2 h3]
theorem KeepsSlots.moveSession (s : State) (d) : KeepsSlots s (s.moveSession d) := fun l => by rw [s.moveSession_raises d l]
theorem KeepsSlots.enterReturning (s : State) (d) : KeepsSlots s (s.enterReturning d) := fun l => by rw [(s.enterReturning_spec d).2.1 l]
theorem KeepsSlots.enterStalled (s : State) (d) : KeepsSlots s (s.enterStalled d) := fun l => by rw [(s.enterStalled_spec d).2.1 l]
theorem KeepsSlots.enterStarting (s : State) : KeepsSlots s s.enterStarting := by
  rw [State.enterStarting_cases]
  have h : KeepsSlots s s.begunStarting := fun l => by rw [s.begunStarting_spec.2.1 l]
  split
  · exact h.trans (KeepsSlots.enterReturning _ _)
  · split
    · exact h.trans (KeepsSlots.enterStalled _ _)
    · exact h
theorem KeepsSlots.reportStallEnd (s : State) (c) : KeepsSlots s (s.reportStallEnd c) := by
  unfold State.reportStallEnd; dsimp only; split
  · split
    · exact (KeepsSlots.same rfl rfl rfl : KeepsSlots s _).trans (KeepsSlots.enterStarting _)
    · exact KeepsSlots.same rfl rfl rfl
  · exact KeepsSlots.refl _
theorem KeepsSlots.countDrop (s : State) : KeepsSlots s s.countDrop := fun l => by cases l <;> rfl
theorem KeepsSlots.replaceEntry (s : State) (a b) : KeepsSlots s (s.replaceEntry a b) := by
  unfold State.replaceEntry
  exact ((KeepsSlots.same rfl rfl rfl : KeepsSlots s { s with queue := placeEntry b (s.queue.erase a) }).trans
    (KeepsSlots.countDrop _)).trans (KeepsSlots.same (by simp) (by simp) (by simp))
theorem KeepsSlots.perform (s : State) (a b) : KeepsSlots s (s.perform a b) := by
  unfold State.perform
  split
  · exact KeepsSlots.same (by simp) (by simp) (by simp)
  · exact KeepsSlots.same (by simp) (by simp) (by simp)
  · exact KeepsSlots.same (by simp) (by simp) (by simp)
  · unfold State.performEnd; split
    · exact KeepsSlots.enterReturning _ _
    · exact KeepsSlots.refl _
  · exact KeepsSlots.refl _
theorem KeepsSlots.insertStrike (s : State) (a b) : KeepsSlots s (s.insertStrike a b) := by
  have h0 : KeepsSlots s s.takeSeq := KeepsSlots.same rfl rfl rfl
  unfold State.insertStrike; dsimp only
  split
  · split
    · exact h0.trans (KeepsSlots.countDrop _)
    · split
      · split
        · exact h0.trans (KeepsSlots.replaceEntry _ _ _)
        · exact h0.trans (KeepsSlots.countDrop _)
      · exact h0.trans (KeepsSlots.countDrop _)
  · exact KeepsSlots.same rfl rfl rfl
theorem KeepsSlots.insertOther (s : State) (a b) : KeepsSlots s (s.insertOther a b) := by
  have h0 : KeepsSlots s s.takeSeq := KeepsSlots.same rfl rfl rfl
  unfold State.insertOther; dsimp only
  split
  · split
    · exact h0.trans (KeepsSlots.perform _ _ _)
    · exact h0.trans (KeepsSlots.replaceEntry _ _ _)
  · exact KeepsSlots.same rfl rfl rfl
theorem KeepsSlots.setOwner (s : State) (k : Key) (o : Option Owner) : KeepsSlots s (s.setOwner k o) :=
  KeepsSlots.same rfl rfl rfl

theorem KeepsSlots.takeOver (s : State) (k : Key) (n : NoteTrack) (due : Time) (gap : Nat) :
    KeepsSlots s (s.takeOver k n due gap) := by
  unfold State.takeOver
  cases (s.key k).owner with
  | none => exact KeepsSlots.refl _
  | some m =>
    dsimp only
    by_cases h : m = .note n
    · rw [if_pos h]; exact KeepsSlots.refl _
    · rw [if_neg h]; exact KeepsSlots.insertOther _ _ _

theorem KeepsSlots.noteOnset (s : State) (t : Timing) (c : Console) (n : NoteTrack) (onset : Time) :
    KeepsSlots s (s.noteOnset t c n onset) := by
  unfold State.noteOnset
  by_cases h : s.session.state = .playing
  · rw [if_pos h]
    unfold State.scheduleOnset
    dsimp only
    generalize s.chosenKey c n = k
    generalize strikeDue _ _ _ _ = due
    have h1 := (KeepsSlots.takeOver s k n due t.repeatGap).trans (KeepsSlots.setOwner _ k (some (.note n)))
    exact (h1.trans (KeepsSlots.insertStrike _ due _)).trans (KeepsSlots.same rfl rfl rfl)
  · rw [if_neg h]; exact KeepsSlots.refl _

theorem KeepsSlots.restrikeTrack (s : State) (n : NoteTrack) : KeepsSlots s (s.restrikeTrack n) := by
  unfold State.restrikeTrack
  by_cases h : s.trackOpen (noteTrackOf n) = true
  · rw [if_pos h]; exact KeepsSlots.noteOnset _ _ _ _ _
  · rw [if_neg h]; exact KeepsSlots.refl _

theorem KeepsSlots.foldlRestrike (s : State) (l : List NoteTrack) : KeepsSlots s (l.foldl State.restrikeTrack s) := by
  induction l generalizing s with
  | nil => exact KeepsSlots.refl _
  | cons n l ih => exact (KeepsSlots.restrikeTrack s n).trans (ih _)

theorem KeepsSlots.loadRollPedals (s : State) : KeepsSlots s s.loadRollPedals :=
  KeepsSlots.same (by simp) (by simp) (by simp)

theorem KeepsSlots.startStallTimer (s : State) : KeepsSlots s s.startStallTimer := KeepsSlots.same rfl rfl rfl

theorem KeepsSlots.lock (s : State) : KeepsSlots s s.lock := by
  unfold State.lock State.restrike
  exact (((KeepsSlots.moveSession s .playing).trans (KeepsSlots.foldlRestrike _ _)).trans (KeepsSlots.loadRollPedals _)).trans
    (KeepsSlots.startStallTimer _)

theorem KeepsSlots.withSpeed (s : State) (m : Speed) : KeepsSlots s { s with speed := m } := KeepsSlots.same rfl rfl rfl

theorem KeepsSlots.judgeStarting (s : State) (good : Bool) : KeepsSlots s (s.judgeStarting good) := by
  unfold State.judgeStarting
  cases good with
  | false => exact KeepsSlots.withSpeed _ _
  | true =>
    by_cases h : 3 ≤ s.speed.inBandRun + 1
    · simp only [if_true, if_pos h]; exact (KeepsSlots.withSpeed s _).trans (KeepsSlots.lock _)
    · simp only [if_true, if_neg h]; exact KeepsSlots.withSpeed _ _

theorem KeepsSlots.judgePlaying (s : State) (good : Bool) : KeepsSlots s (s.judgePlaying good) := by
  unfold State.judgePlaying
  cases good <;> by_cases h : s.speed.condition = .offSpeed
  · simp only [if_pos h]; exact KeepsSlots.refl _
  · by_cases h4 : 4 ≤ s.speed.outBandRun + 1
    · simp only [Bool.false_eq_true, if_false, if_neg h, if_pos h4]
      exact (KeepsSlots.withSpeed s _).trans (KeepsSlots.raise _ _)
    · simp only [Bool.false_eq_true, if_false, if_neg h, if_neg h4]; exact KeepsSlots.withSpeed _ _
  · simp only [if_true, if_pos h]; exact (KeepsSlots.withSpeed s _).trans (KeepsSlots.raise _ _)
  · simp only [if_true, if_neg h]; exact KeepsSlots.withSpeed _ _

theorem KeepsSlots.measure (s : State) (k T : Nat) : KeepsSlots s (s.measure k T) := by
  unfold State.measure
  by_cases h : T = 0 ∨ 1000000 < T
  · rw [if_pos h]; exact KeepsSlots.refl _
  · rw [if_neg h]
    dsimp only
    have h0 := KeepsSlots.withSpeed s (s.speed.measured (ratio k T s.speed.targetRate) s.timing.speedTolerance)
    cases s.session.state
    case starting => exact h0.trans (KeepsSlots.judgeStarting _ _)
    case playing => exact h0.trans (KeepsSlots.judgePlaying _ _)
    all_goals exact h0

theorem KeepsSlots.setAnchor (s : State) (m : Mark) : KeepsSlots s (s.setAnchor m) := KeepsSlots.withSpeed _ _

theorem KeepsSlots.monitorLine (s : State) (m : Mark) (opened : Bool) : KeepsSlots s (s.monitorLine m opened) := by
  unfold State.monitorLine
  by_cases h : s.session.state.isRunning = true
  · rw [if_pos h]
    cases s.speed.anchor with
    | none => exact KeepsSlots.setAnchor _ _
    | some a =>
      cases opened with
      | true => exact KeepsSlots.setAnchor _ _
      | false =>
        by_cases h32 : (m.position - a.position).toNat < 32
        · simp only [Bool.false_eq_true, if_false, if_pos h32]; exact KeepsSlots.refl _
        · simp only [Bool.false_eq_true, if_false, if_neg h32]
          exact (KeepsSlots.setAnchor s m).trans (KeepsSlots.measure _ _ _)
  · rw [if_neg h]; exact KeepsSlots.refl _

theorem KeepsSlots.watchLine (s : State) : KeepsSlots s s.watchLine := by
  unfold State.watchLine
  cases s.session.state
  case playing => exact KeepsSlots.startStallTimer _
  case stalled => exact KeepsSlots.reportStallEnd _ _
  all_goals exact KeepsSlots.refl _

end Sys2Proof.Machine
end

