-- ==== Sys2Proof/Laws/PerInstr.lean ====
section
/-! SUPPORT. The laws stated once for each command: the payload of a request, as section 11.2.2 lays it out, has the length that
Table 11-2 gives its row. -/

namespace Sys2Proof.Laws.PayloadFitsTable

/-- The payload that section 11.2.2 lays out for a command has its table row's length; a command that is no request has no row. -/
def Statement (i : Instr) : Prop :=
  ∀ row, Machine.requestRow i = some row → (requestPayload i).length = row.length

/-- A command that is no request of Table 11-2 has no row. -/
theorem of_none {i : Instr} (hc : requestCode i = none) : Statement i := by
  intro row h
  simp [Machine.requestRow, hc] at h

/-- A request whose payload has the length of the row of its code. -/
theorem of_row {i : Instr} {code : Byte} {r : Machine.RequestRow} (hc : requestCode i = some code)
    (hr : Machine.requestTable.find? (fun row => row.code == code) = some r) (hl : (requestPayload i).length = r.length) :
    Statement i := by
  intro row h
  simp only [Machine.requestRow, hc, Option.bind_some, hr, Option.some.injEq] at h
  exact h ▸ hl

theorem pinReset : Statement (.pinReset) := of_none rfl

theorem transactionStart (link : Link) : Statement (.transactionStart link) := of_none rfl

theorem frameDiscard (link : Link) (frame : Frame) : Statement (.frameDiscard link frame) := of_none rfl

theorem unknownRequest (head : Head) (code : Byte) : Statement (.unknownRequest head code) := of_none rfl

theorem transportStatus (head : Head) : Statement (.transportStatus head) := of_row rfl rfl (by simp [requestPayload])

theorem performanceStatus (head : Head) : Statement (.performanceStatus head) :=
  of_row rfl rfl (by simp [requestPayload])

theorem readEvents (head : Head) : Statement (.readEvents head) := of_row rfl rfl (by simp [requestPayload])

theorem ackEvents (head : Head) (kinds : BitVec 8) : Statement (.ackEvents head kinds) :=
  of_row rfl rfl (by simp [requestPayload])

theorem setEventMask (head : Head) (kinds : BitVec 8) : Statement (.setEventMask head kinds) :=
  of_row rfl rfl (by simp [requestPayload])

theorem scanLine (head : Head) (index left right : BitVec 16) (flags : BitVec 8) (photosites : BitVec 256) : Statement (.scanLine head index left right flags photosites) :=
  of_row rfl rfl (by simp [requestPayload])

theorem rollLoaded (head : Head) (rate : BitVec 16) : Statement (.rollLoaded head rate) :=
  of_row rfl rfl (by simp [requestPayload])

theorem rollRemoved (head : Head) : Statement (.rollRemoved head) := of_row rfl rfl (by simp [requestPayload])

theorem rewound (head : Head) : Statement (.rewound head) := of_row rfl rfl (by simp [requestPayload])

theorem intakeRestart (head : Head) : Statement (.intakeRestart head) := of_row rfl rfl (by simp [requestPayload])

theorem play (head : Head) : Statement (.play head) := of_row rfl rfl (by simp [requestPayload])

theorem pause (head : Head) : Statement (.pause head) := of_row rfl rfl (by simp [requestPayload])

theorem stop (head : Head) : Statement (.stop head) := of_row rfl rfl (by simp [requestPayload])

theorem setTempo (head : Head) (factor : BitVec 16) : Statement (.setTempo head factor) :=
  of_row rfl rfl (by simp [requestPayload])

theorem setTranspose (head : Head) (value : BitVec 8) : Statement (.setTranspose head value) :=
  of_row rfl rfl (by simp [requestPayload])

theorem setShading (head : Head) (mode : BitVec 8) (weight gain : BitVec 16) : Statement (.setShading head mode weight gain) :=
  of_row rfl rfl (by simp [requestPayload])

theorem setLevers (head : Head) (bass treble : BitVec 16) : Statement (.setLevers head bass treble) :=
  of_row rfl rfl (by simp [requestPayload])

theorem setConsolePedals (head : Head) (damper soft sostenuto : BitVec 8) : Statement (.setConsolePedals head damper soft sostenuto) :=
  of_row rfl rfl (by simp [requestPayload])

theorem writeKeyCal (head : Head) (key : BitVec 8) (record : KeyCalFields) : Statement (.writeKeyCal head key record) :=
  of_row rfl rfl (by simp [requestPayload])

theorem readKeyCal (head : Head) (key : BitVec 8) : Statement (.readKeyCal head key) :=
  of_row rfl rfl (by simp [requestPayload])

theorem writeStepTable (head : Head) (levels : Vector (BitVec 16) 8) : Statement (.writeStepTable head levels) :=
  of_row rfl rfl (by simp [requestPayload])

theorem writeChannel (head : Head) (channel : BitVec 8) (rateA rateB : BitVec 16) : Statement (.writeChannel head channel rateA rateB) :=
  of_row rfl rfl (by simp [requestPayload])

theorem writePedalCurve (head : Head) (selector : BitVec 8) (values : Vector (BitVec 16) 5) : Statement (.writePedalCurve head selector values) :=
  of_row rfl rfl (by simp [requestPayload])

theorem writeSostenutoHoldDuty (head : Head) (values : Vector (BitVec 16) 5) : Statement (.writeSostenutoHoldDuty head values) :=
  of_row rfl rfl (by simp [requestPayload])

theorem setTiming (head : Head) (fields : TimingFields) : Statement (.setTiming head fields) :=
  of_row rfl rfl (by simp [requestPayload])

theorem driveEnable (head : Head) (value : BitVec 8) : Statement (.driveEnable head value) :=
  of_row rfl rfl (by simp [requestPayload])

theorem driveDisable (head : Head) : Statement (.driveDisable head) := of_row rfl rfl (by simp [requestPayload])

theorem testStrike (head : Head) (key intensity : BitVec 8) (holdMs : BitVec 16) : Statement (.testStrike head key intensity holdMs) :=
  of_row rfl rfl (by simp [requestPayload])

theorem readKeyState (head : Head) (key : BitVec 8) : Statement (.readKeyState head key) :=
  of_row rfl rfl (by simp [requestPayload])

theorem readCounters (head : Head) : Statement (.readCounters head) := of_row rfl rfl (by simp [requestPayload])

theorem resetCore (head : Head) : Statement (.resetCore head) := of_row rfl rfl (by simp [requestPayload])

theorem faultEdge : Statement (.faultEdge) := of_none rfl

theorem faultInputRelease : Statement (.faultInputRelease) := of_none rfl

theorem decodeCompletion : Statement (.decodeCompletion) := of_none rfl

theorem stallTimerExpiry : Statement (.stallTimerExpiry) := of_none rfl

theorem startupTimerExpiry : Statement (.startupTimerExpiry) := of_none rfl

theorem expressionTick : Statement (.expressionTick) := of_none rfl

theorem thermalTick : Statement (.thermalTick) := of_none rfl

theorem pwmFrameBoundary : Statement (.pwmFrameBoundary) := of_none rfl

theorem releaseEntryPerform : Statement (.releaseEntryPerform) := of_none rfl

theorem takeoverReleasePerform : Statement (.takeoverReleasePerform) := of_none rfl

theorem pedalEntryPerform : Statement (.pedalEntryPerform) := of_none rfl

theorem endEntryPerform : Statement (.endEntryPerform) := of_none rfl

theorem strikeStart : Statement (.strikeStart) := of_none rfl

theorem strikeEnd (key : Key) : Statement (.strikeEnd key) := of_none rfl

theorem settleEnd (key : Key) : Statement (.settleEnd key) := of_none rfl

theorem keyRested (key : Key) : Statement (.keyRested key) := of_none rfl

theorem pullInEnd : Statement (.pullInEnd) := of_none rfl

theorem selectReleaseAfterPinReset (link : Link) : Statement (.selectReleaseAfterPinReset link) := of_none rfl

end Sys2Proof.Laws.PayloadFitsTable
end

