-- ==== Sys2Proof/Tests/Slice0.lean ====
section
/-! SUPPORT. Small tests with the manual's own figures, the smoke tests of well-formedness, and for each statement with hypotheses
a state and operands that meet them. -/

namespace Sys2Proof.Machine

/-! ## Helpers -/

/-- The state a command leaves. -/
def ran (c : Instr) (s : State) : State :=
  match exec c s with
  | .next t => t
  | .fault _ => s
  | .refused _ => s

/-- A part with a roll, the intake accepting and the drive enabled, in a session state. -/
def standing (st : SessionState) : State :=
  { State.reset with
    session := ⟨st, CauseSet.empty, none, false⟩
    intake := { Intake.initial with state := .accepting }
    drive := { Drive.initial with actEn := true } }

/-- The head of a frame on a link with a declared length. -/
def headOf (l : Link) (declared : Byte) : Head := ⟨l, 1#8, declared⟩

/-- A line with edges 336 and 3824 and every photosite dark, at a position. -/
def darkLine (position : Position) : Line := ⟨0#16, 336, 3824, true, true, 0#256, 5000000#32, position⟩

/-- A part with one line under decode for 60 µs. -/
def decodingLine (st : SessionState) (l : Line) : State :=
  { standing st with
    clock := 60#32
    intake := { Intake.initial with state := .accepting, queue := [l], decode := some ⟨0#32, Timing.initial, Console.initial⟩ } }

/-! ## Well-formedness -/

theorem test_wf_declared_above_64_refused : WellFormed (.play (headOf .C 65#8)) = false := by decide
theorem test_wf_declared_64_taken : WellFormed (.play (headOf .C 64#8)) = true := by decide
theorem test_wf_counted_discard_refused : WellFormed (.frameDiscard .C ⟨[0x20#8, 4#8, 0#8], 0⟩) = false := by decide
theorem test_wf_partial_byte_discarded : WellFormed (.frameDiscard .C ⟨[0x20#8, 4#8, 0#8], 1⟩) = true := by decide
theorem test_wf_known_code_not_unknown : WellFormed (.unknownRequest (headOf .C 0#8) 0x20#8) = false := by decide
theorem test_wf_enable_without_disable_value : WellFormed (.driveEnable (headOf .S 1#8) 0#8) = false := by decide
theorem test_wf_curve_without_sostenuto_selector :
    WellFormed (.writePedalCurve (headOf .S 11#8) 2#8 (Vector.replicate 5 0#16)) = false := by decide

/-! ## Frames, written out byte by byte from section 11.2.2 and Table 11-2 -/

theorem test_decode_set_tempo :
    decodeFrame .C ⟨[0x23#8, 5#8, 2#8, 0x40#8, 1#8], 0⟩ = .setTempo ⟨.C, 5#8, 2#8⟩ 320#16 := by decide
theorem test_decode_roll_loaded :
    decodeFrame .T ⟨[0x11#8, 1#8, 2#8, 0x96#8, 1#8], 0⟩ = .rollLoaded ⟨.T, 1#8, 2#8⟩ 406#16 := by decide
theorem test_decode_test_strike :
    decodeFrame .S ⟨[0x37#8, 2#8, 4#8, 39#8, 53#8, 0xF4#8, 1#8], 0⟩ = .testStrike ⟨.S, 2#8, 4#8⟩ 39#8 53#8 500#16 := by decide
theorem test_decode_drive :
    decodeFrame .S ⟨[0x36#8, 2#8, 1#8, 0#8], 0⟩ = .driveDisable ⟨.S, 2#8, 1#8⟩ ∧
    decodeFrame .S ⟨[0x36#8, 2#8, 1#8, 1#8], 0⟩ = .driveEnable ⟨.S, 2#8, 1#8⟩ 1#8 := by decide
theorem test_decode_levers :
    decodeFrame .C ⟨[0x26#8, 6#8, 4#8, 0xFF#8, 3#8, 0#8, 2#8], 0⟩ = .setLevers ⟨.C, 6#8, 4#8⟩ 1023#16 512#16 := by decide
theorem test_decode_zeros_unknown :
    decodeFrame .C ⟨[0#8, 0#8, 0#8], 0⟩ = .unknownRequest ⟨.C, 0#8, 0#8⟩ 0#8 := by decide
theorem test_decode_short_frame_discarded :
    decodeFrame .C ⟨[0x26#8, 6#8, 4#8, 0#8, 0#8], 0⟩ = .frameDiscard .C ⟨[0x26#8, 6#8, 4#8, 0#8, 0#8], 0⟩ := by decide

/-! ## Requests -/

/-- Section 11.6, step 1: SET_EVENT_MASK with SESSION latched asserts ATTN. -/
theorem test_mask_asserts_attention :
    (ran (.setEventMask (headOf .C 1#8) 1#8) ((standing .loaded).raise .session)).attention .C = true := by decide
/-- Section 11.6, step 4: ACK_EVENTS empties the C latch only. -/
theorem test_ack_is_local :
    (ran (.ackEvents (headOf .C 1#8) 1#8) ((standing .loaded).raise .session)).linkC.latch = 0#8 ∧
    (ran (.ackEvents (headOf .C 1#8) 1#8) ((standing .loaded).raise .session)).linkT.latch = 1#8 := by decide
/-- Section 11.6, step 6: the length check comes before the session's. -/
theorem test_play_length :
    (ran (.play (headOf .C 1#8)) (standing .starting)).linkC.slot = ⟨.length, 1#8, []⟩ := by decide
/-- Section 11.6, step 8: a T-link request on the C-link. -/
theorem test_rewound_not_permitted :
    (ran (.rewound (headOf .C 0#8)) (standing .starting)).linkC.slot = ⟨.notPermitted, 1#8, []⟩ := by decide
theorem test_play_starts : (ran (.play (headOf .C 0#8)) (standing .loaded)).session.state = .starting := by decide
theorem test_play_without_drive :
    (ran (.play (headOf .C 0#8)) { standing .loaded with drive := Drive.initial }).linkC.slot.status = .driveOff := by decide
theorem test_stop_returns : (ran (.stop (headOf .C 0#8)) (standing .playing)).session.lastCause = some .stop := by decide
theorem test_tempo_clamped : (ran (.setTempo (headOf .C 2#8) 100#16) (standing .playing)).speed.tempo = 128 := by decide
theorem test_transpose_clamped :
    (ran (.setTranspose (headOf .C 1#8) 0xF0#8) (standing .playing)).console.transpose = -12 := by decide
theorem test_shading_mode_refused :
    (ran (.setShading (headOf .C 5#8) 3#8 0#16 0#16) (standing .playing)).linkC.slot.status = .range := by decide
theorem test_sostenuto_pulls_in :
    (ran (.setConsolePedals (headOf .C 3#8) 0#8 0#8 1#8) (standing .playing)).pedals.sostenuto = .pullIn 60000#32 := by decide
theorem test_step_table_moves_target :
    (ran (.writeStepTable (headOf .S 16#8) (Vector.replicate 8 2000#16)) (standing .playing)).shaping.ch0.target = 65472 := by
  decide
theorem test_core_reset_keeps_clock :
    (ran (.resetCore (headOf .S 0#8)) { standing .playing with clock := 7#32 }).keys[3].idleSince = 7#32 := by decide
theorem test_pin_reset_ignores_asserted_select :
    (ran .pinReset (ran (.transactionStart .T) State.reset)).linkT.transaction = .ignored := by decide
theorem test_drive_loss_pauses :
    (ran (.driveDisable (headOf .S 1#8)) (standing .playing)).session = ⟨.paused, CauseSet.empty, some .driveOff, false⟩ := by
  decide
theorem test_fault_latched : (ran .faultEdge (standing .loaded)).linkC.latch = 0x80#8 := by decide

/-! ## Lines -/

/-- Section 1.10, steps 1 and 4: an open acceptance, and a gap of 2. -/
theorem test_line_open_then_gap :
    let s := ran (.scanLine (headOf .T 39#8) 4100#16 336#16 3824#16 3#8 0#256) (standing .loaded)
    s.intake.lastPosition = some 0#32 ∧
    (ran (.scanLine (headOf .T 39#8) 4103#16 336#16 3824#16 3#8 0#256) s).intake.lastPosition = some 3#32 := by decide
/-- Section 1.10, step 6: an index already accepted halts the intake. -/
theorem test_line_out_of_order_halts :
    let s := ran (.scanLine (headOf .T 39#8) 4100#16 336#16 3824#16 3#8 0#256) (standing .loaded)
    (ran (.scanLine (headOf .T 39#8) 4100#16 336#16 3824#16 3#8 0#256) s).intake.state = .halted := by decide
/-- Section 3.8: q of the spans of lines 1232 and 1361. -/
theorem test_ratio : ratio 32 84000 406 = 938 ∧ ratio 33 79300 406 = 1024 := by decide
theorem test_trim : trimOf 938 = 62 ∧ trimOf 1024 = -24 ∧ trimOf 500 = 125 := by decide

/-! ## Tracking and detectors -/

/-- Section 2.3: the filter at positions 0 to 2. -/
theorem test_filter :
    filterAfter none (darkLine 0#32) = ⟨33280, 55808⟩ ∧ filterMove 33280 2090 8 = 33300 ∧ filterMove 33300 2070 8 = 33278 := by
  decide
/-- Section 2.3: photosites of END, note track 0 and SOFT at C = 2080, W = 3488. -/
theorem test_columns :
    trackColumn (some ⟨33280, 55808⟩) 0 = 29 ∧ trackColumn (some ⟨33280, 55808⟩) 7 = 43 ∧
    trackColumn (some ⟨33280, 55808⟩) 100 = 231 := by decide
theorem test_vote_opens : voteSample ⟨1#32, 2#32⟩ 2 1 true = .opened ⟨1#32, 2#32⟩ .zero := by decide
theorem test_vote_fails : voteSample ⟨1#32, 2#32⟩ 2 1 false = .closed := by decide

/-! ## Shaping -/

/-- The table of R85. -/
theorem test_increment :
    increment 19200 2 = 150 ∧ increment (-7091) 40 = -1107 ∧ increment 5 40 = 1 ∧ increment (-3) 24 = -1 ∧
    increment 300 256 = 300 := by decide
/-- The table of R80. -/
theorem test_pedal_target : pedalTarget 1 = 512 ∧ pedalTarget 100 = 51520 ∧ pedalTarget 127 = 65472 := by decide
/-- The table of R157. -/
theorem test_curve_duty :
    curveDuty Calibration.initial.damperCurve 255 = 378 ∧ curveDuty Calibration.initial.softCurve 447 = 611 ∧
    curveDuty Calibration.initial.damperCurve 1023 = 899 := by decide

/-! ## Strikes and heat -/

/-- The table of R123. -/
theorem test_strike_figures :
    KeyCal.default.baseWidth 53 = 4637 ∧ KeyCal.default.flightOf 53 = 65187 ∧ KeyCal.default.baseWidth 127 = 13062 ∧
    KeyCal.default.flightOf 127 = 41156 := by decide
/-- Section 7.5: halving and clamp. -/
theorem test_protected_width : protectedWidth .hot 4637 = 2318 ∧ protectedWidth .hot 800 = 500 ∧ protectedWidth .warm 31750 = 25000 := by
  decide
/-- Section 7.5: due times, with a spent lead and across the wrap. -/
theorem test_strike_due :
    strikeDue 5004930#32 5000000#32 150000 107000 = 5043000#32 ∧ strikeDue 5100000#32 5000000#32 150000 107000 = 5100000#32 ∧
    strikeDue 4294954930#32 4294950000#32 150000 65187 = 67517#32 := by decide
/-- Section 10.5: key 20's heat in STRIKE and in HOLD. -/
theorem test_heat :
    cooling 816 = 9 ∧ tickedHeat { KeyRecord.atReset 0#32 with heat := 798, phase := .hold } 900 = 1239 ∧
    tickedHeat { KeyRecord.atReset 0#32 with heat := 24044, phase := .hold, thermal := .warm } 900 = 23988 := by decide
theorem test_test_strike_queue :
    ((ran (.testStrike (headOf .S 4#8) 39#8 127#8 0#16) (standing .loaded)).queue.map Entry.due) = [0#32, 13062#32] := by decide
/-- A rested key's strike starts, in STRIKE for W = 13,062 and 816 hot (R141, R171). -/
theorem test_strike_start :
    let s := ran (.testStrike (headOf .S 4#8) 39#8 127#8 0#16) ((standing .loaded).setKey 39 { KeyRecord.atReset 0#32 with phase := .idle true })
    ((ran .strikeStart s).key 39).phase = .strike 13062#32 false .test ∧ ((ran .strikeStart s).key 39).heat = 816 := by decide
/-- A TEST_STRIKE on a key TEST holds takes it over at once: the key is RELEASING, its old release is gone, and only the new strike
and its release are queued (R135, R145). -/
theorem test_test_strike_takes_over_at_once :
    let s := (standing .loaded).setKey 39 { KeyRecord.atReset 0#32 with phase := .hold, owner := some .test }
    let t := ran (.testStrike (headOf .S 4#8) 39#8 127#8 0#16) { s with queue := [⟨9#32, 7#32, .release 39 .test⟩], nextSeq := 8#32 }
    (t.key 39).phase = .releasing 35000#32 ∧ t.queue.map Entry.seq = [9#32, 10#32] := by decide
theorem test_fold_key : foldKey 93 = 81 ∧ foldKey (-5) = 7 ∧ foldKey 87 = 87 := by decide

/-! ## Witnesses: a state and operands that meet the hypotheses of each statement, clause by clause -/

/-- A request on a link whose transaction is idle is taken when it is permitted there with its length. -/
theorem takes_headOf {s : State} {l : Link} {links : List Link} (n : Byte) (idle : (s.link l).transaction = .idle)
    (permitted : l ∈ links) : s.takes (headOf l n) links n.toNat :=
  ⟨by show (s.link l).transaction ≠ .ignored; rw [idle]; decide, permitted, rfl⟩

/-- A part that stands as `standing` does, with another intake. -/
def lined (st : SessionState) (queue : List Line) (expected : Option LineIndex) : State :=
  { standing st with intake := { Intake.initial with state := .accepting, queue := queue, expected := expected } }

/-- A part in STALLED with causes, a tracking state and an end flag. -/
def stalledWith (causes : CauseSet) (tracking : TrackingState) (endConfirmed : Bool) : State :=
  { lined .stalled [] (some 7#16) with
    session := ⟨.stalled, causes, none, endConfirmed⟩, tracker := { Tracker.initial with state := tracking } }

/-- A part with an anchor 32 positions behind the line to come, a second earlier than now. -/
def anchored (st : SessionState) (condition : SpeedCondition) (run : Nat) : State :=
  { lined st [] (some 32#16) with
    clock := 1000000#32
    intake := { Intake.initial with state := .accepting, expected := some 32#16, lastPosition := some 31#32 }
    speed := { Speed.initial with anchor := some ⟨0#32, 0#32⟩, condition := condition, inBandRun := run, outBandRun := run } }

theorem witness_idle_step :
    State.reset.pending = [] ∧ State.reset.dueEvents = [] ∧ ({ State.reset with clock := 50#32 } : State).pending = [] ∧
      ({ State.reset with clock := 50#32 } : State).dueEvents ≠ [] := by decide

theorem witness_encoded_request :
    WellFormed (.setTempo (headOf .C 2#8) 320#16) = true ∧ (Instr.setTempo (headOf .C 2#8) 320#16).head? = some (headOf .C 2#8) ∧
      (headOf .C 2#8).declared.toNat = (requestPayload (.setTempo (headOf .C 2#8) 320#16)).length ∧
      encodeRequest (.setTempo (headOf .C 2#8) 320#16) = some (.C, ⟨[0x23#8, 1#8, 2#8, 0x40#8, 1#8], 0⟩) := by decide

theorem witness_counted_frame :
    (List.replicate 64 0#8).length = (64#8).toNat ∧ (64#8).toNat ≤ 64 ∧ ([] : List Byte).length = (0#8).toNat := by decide

theorem witness_fixed_reply :
    (standing .playing).takes (headOf .S 0#8) [.S] 0 ∧ ((standing .playing).link .T).transaction = .idle ∧ Link.T ≠ .S ∧
      (⟨[0x01#8, 7#8, 0#8], 0⟩ : Frame).extraBits = 0 :=
  ⟨takes_headOf 0#8 rfl (by decide), by decide⟩

theorem witness_discard : (standing .playing).hears .T ∧ (standing .playing).hears .C ∧ (standing .playing).hears .S := by
  unfold State.hears; decide

theorem witness_ignored_select :
    ((ran .pinReset (ran (.transactionStart .C) State.reset)).link .C).transaction = .ignored ∧
      (Instr.play (headOf .C 0#8)).head? = some (headOf .C 0#8) ∧ (headOf .C 0#8).link = .C := by decide

theorem witness_framing_refusals :
    (standing .playing).hears (headOf .C 0#8).link ∧ (Instr.rewound (headOf .C 0#8)).head? = some (headOf .C 0#8) ∧
      requestRow (.rewound (headOf .C 0#8)) = some ⟨0x13#8, [.T], 0⟩ ∧ (headOf .C 0#8).link ∉ [Link.T] ∧
      (Instr.play (headOf .C 1#8)).head? = some (headOf .C 1#8) ∧
      requestRow (.play (headOf .C 1#8)) = some ⟨0x20#8, [.C], 0⟩ ∧ (headOf .C 1#8).link ∈ [Link.C] ∧
      (headOf .C 1#8).declared.toNat ≠ 0 := by
  unfold State.hears; decide

theorem witness_status_reads :
    (standing .stalled).takes (headOf .T 0#8) [.T, .C, .S] 0 ∧ (standing .stalled).takes (headOf .C 0#8) [.T, .C, .S] 0 ∧
      (standing .stalled).takes (headOf .S 0#8) [.T, .C, .S] 0 :=
  ⟨takes_headOf 0#8 rfl (by decide), takes_headOf 0#8 rfl (by decide), takes_headOf 0#8 rfl (by decide)⟩

theorem witness_event_requests :
    (standing .loaded).takes (headOf .C 0#8) [.T, .C, .S] 0 ∧ (standing .loaded).takes (headOf .C 1#8) [.T, .C, .S] 1 :=
  ⟨takes_headOf 0#8 rfl (by decide), takes_headOf 1#8 rfl (by decide)⟩

theorem witness_refused_and_overrun_lines :
    State.reset.takes (headOf .T 39#8) [.T] 39 ∧ State.reset.intake.state ≠ .accepting ∧
      (lined .playing (List.replicate 16 (darkLine 0#32)) none).takes (headOf .T 39#8) [.T] 39 ∧
      (lined .playing (List.replicate 16 (darkLine 0#32)) none).intake.state = .accepting ∧
      16 ≤ (lined .playing (List.replicate 16 (darkLine 0#32)) none).intake.queue.length :=
  ⟨takes_headOf 39#8 rfl (by decide), by decide, takes_headOf 39#8 rfl (by decide), by decide⟩

theorem witness_out_of_order_line :
    (∀ st ∈ [SessionState.starting, .playing, .stalled, .paused],
      (lined st [] (some 7#16)).takes (headOf .T 39#8) [.T] 39 ∧ (lined st [] (some 7#16)).session.state = st) ∧
      (lined .playing (List.replicate 15 (darkLine 0#32)) (some 7#16)).intake.state = .accepting ∧
      (lined .playing (List.replicate 15 (darkLine 0#32)) (some 7#16)).intake.queue.length < 16 ∧
      (lined .playing [] (some 7#16)).intake.expected = some 7#16 ∧ 64 ≤ (71#16 - 7#16).toNat :=
  ⟨fun _ _ => ⟨takes_headOf 39#8 rfl (by decide), rfl⟩, by decide⟩

theorem witness_accepted_line :
    (lined .loaded [] none).takes (headOf .T 39#8) [.T] 39 ∧ (lined .loaded [] none).placesLine 4100#16 0 0#32 ∧
      (lined .playing (List.replicate 15 (darkLine 0#32)) (some 7#16)).intake.state = .accepting ∧
      (lined .playing (List.replicate 15 (darkLine 0#32)) (some 7#16)).intake.queue.length < 16 ∧
      (lined .playing (List.replicate 15 (darkLine 0#32)) (some 7#16)).placesLine 70#16 63 64#32 ∧
      (lined .starting [] (some 7#16)).speed.anchor = none ∧
      (anchored .starting .unlocked 0).takes (headOf .T 39#8) [.T] 39 ∧
      (anchored .starting .unlocked 0).speed.anchor = some ⟨0#32, 0#32⟩ ∧
      ({ anchored .starting .unlocked 0 with
         intake := { Intake.initial with expected := some 7#16, lastPosition := some 30#32 } } : State).placesLine 7#16 0 31#32 ∧
      (31#32 - 0#32).toNat < 32 ∧
      (stalledWith ⟨false, true, false⟩ .lost false).takes (headOf .T 39#8) [.T] 39 ∧
      (stalledWith ⟨false, true, false⟩ .lost false).placesLine 7#16 0 1#32 ∧
      (stalledWith ⟨false, true, false⟩ .lost false).session.state ∉ [SessionState.starting, .playing] ∧
      (stalledWith ⟨false, true, false⟩ .lost false).session.causes.noLines = false :=
  ⟨takes_headOf 39#8 rfl (by decide), ⟨rfl, rfl⟩, rfl, by decide, ⟨rfl, by decide, by decide⟩, rfl,
    takes_headOf 39#8 rfl (by decide), rfl, ⟨rfl, by decide, by decide⟩, by decide, takes_headOf 39#8 rfl (by decide),
    ⟨rfl, by decide, rfl⟩, by decide, rfl⟩

/-- From STALLED with NO_LINES alone and a confirmed end mark, a line leads to RETURNING; with another cause it does not. -/
theorem witness_accepted_line_from_stalled :
    (ran (.scanLine (headOf .T 39#8) 7#16 336#16 3824#16 3#8 0#256) (stalledWith ⟨true, false, false⟩ .locked true)).session.state =
        .returning ∧
      (ran (.scanLine (headOf .T 39#8) 7#16 336#16 3824#16 3#8 0#256) (stalledWith ⟨true, true, false⟩ .lost true)).session.state =
        .stalled := by decide

theorem witness_no_lines_ends :
    (∀ causes tracking endConfirmed, (stalledWith causes tracking endConfirmed).takes (headOf .T 39#8) [.T] 39 ∧
      (stalledWith causes tracking endConfirmed).intake.state = .accepting ∧
      (stalledWith causes tracking endConfirmed).intake.queue.length < 16 ∧
      (stalledWith causes tracking endConfirmed).placesLine 7#16 0 1#32 ∧
      (stalledWith causes tracking endConfirmed).session.state = .stalled) ∧
      (stalledWith ⟨true, true, false⟩ .lost false).session.causes.noLines = true ∧
      (stalledWith ⟨true, false, false⟩ .locked false).session.causes.noLines = true ∧
      (stalledWith ⟨true, false, false⟩ .locked true).session.causes.noLines = true :=
  ⟨fun _ _ _ => ⟨takes_headOf 39#8 rfl (by decide), rfl, by show 0 < 16; decide, ⟨rfl, by decide, rfl⟩, rfl⟩, by decide⟩

/-- At a target of 100 lines per second, 32 lines in a second give q = 320 and in 320,000 µs give q = 1000. -/
theorem witness_measurement :
    (∀ st condition run, (anchored st condition run).takes (headOf .T 39#8) [.T] 39 ∧
      (anchored st condition run).intake.state = .accepting ∧ (anchored st condition run).intake.queue.length < 16 ∧
      (anchored st condition run).intake.expected = some 32#16 ∧ (anchored st condition run).placesLine 32#16 0 32#32 ∧
      (anchored st condition run).speed.anchor = some ⟨0#32, 0#32⟩ ∧ (anchored st condition run).session.state = st ∧
      (anchored st condition run).speed.condition = condition) ∧
      32 = (32#32 - 0#32).toNat ∧ 1000000 = ((anchored .playing .locked 3).clock - 0#32).toNat ∧
      320 = min 65535 (32 * 1000000000 / (1000000 * (Speed.initial.nominalRate * Speed.initial.tempo / 256))) ∧
      1000 = min 65535 (32 * 1000000000 / (320000 * (Speed.initial.nominalRate * Speed.initial.tempo / 256))) ∧
      0 = (({ anchored .playing .locked 3 with clock := 0#32 } : State).clock - 0#32).toNat ∧
      1000000 < (({ anchored .playing .locked 3 with clock := 1000001#32 } : State).clock - 0#32).toNat :=
  ⟨fun _ _ _ => ⟨takes_headOf 39#8 rfl (by decide), rfl, by show 0 < 16; decide, rfl, ⟨rfl, by decide, rfl⟩, rfl, rfl, rfl⟩,
    by decide⟩

/-- A part in STARTING whose next line is the third in-band measurement, with note track 33 OPEN and every other track CLOSED. -/
def locking : State :=
  { anchored .starting .unlocked 2 with
    clock := 320000#32, detectors := detectorsClosed.set 40 (.opened ⟨0#32, 0#32⟩ .zero) }

theorem witness_lock :
    locking.takes (headOf .T 39#8) [.T] 39 ∧ locking.intake.state = .accepting ∧ locking.intake.queue.length < 16 ∧
      locking.intake.expected = some 32#16 ∧ locking.placesLine 32#16 (32#16 - 32#16 : LineIndex).toNat 32#32 ∧
      locking.speed.anchor = some ⟨0#32, 0#32⟩ ∧ 32 = (32#32 - 0#32).toNat ∧ 320000 = (locking.clock - 0#32).toNat ∧
      1000 = min 65535 (32 * 1000000000 / (320000 * (locking.speed.nominalRate * locking.speed.tempo / 256))) ∧
      (1000 - ((1000 : Nat) : Int)).natAbs ≤ locking.timing.speedTolerance ∧ locking.session.state = .starting ∧
      2 ≤ locking.speed.inBandRun ∧ locking.detectors[noteTrackOf 33].isOpen = true ∧
      locking.detectors[noteTrackOf 34].isOpen = false :=
  ⟨takes_headOf 39#8 rfl (by decide), rfl, by decide, rfl, ⟨by decide, by decide, by decide⟩, rfl, by decide⟩

theorem witness_roll_starts :
    (standing .loaded).takes (headOf .T 2#8) [.T] 2 ∧ (standing .loaded).session.state ≠ .noRoll ∧
      State.reset.takes (headOf .T 2#8) [.T] 2 ∧ State.reset.session.state = .noRoll ∧
      (standing .loaded).takes (headOf .T 0#8) [.T] 0 ∧ (standing .loaded).session.state ≠ .returning ∧
      (standing .returning).takes (headOf .T 0#8) [.T] 0 ∧ (standing .returning).session.state = .returning :=
  ⟨takes_headOf 2#8 rfl (by decide), by decide, takes_headOf 2#8 rfl (by decide), rfl, takes_headOf 0#8 rfl (by decide), by decide,
    takes_headOf 0#8 rfl (by decide), rfl⟩

theorem witness_roll_removed :
    State.reset.takes (headOf .T 0#8) [.T] 0 ∧ State.reset.session.state = .noRoll ∧
      (standing .playing).takes (headOf .T 0#8) [.T] 0 ∧ (standing .playing).session.state ≠ .noRoll :=
  ⟨takes_headOf 0#8 rfl (by decide), rfl, takes_headOf 0#8 rfl (by decide), by decide⟩

theorem witness_intake_restart :
    State.reset.takes (headOf .T 0#8) [.T] 0 ∧ State.reset.intake.state = .off ∧
      (standing .playing).takes (headOf .T 0#8) [.T] 0 ∧ (standing .playing).intake.state ≠ .off ∧
      (∀ causes tracking endConfirmed, (stalledWith causes tracking endConfirmed).takes (headOf .T 0#8) [.T] 0 ∧
        (stalledWith causes tracking endConfirmed).intake.state ≠ .off ∧
        (stalledWith causes tracking endConfirmed).session.state = .stalled ∧
        (stalledWith causes tracking endConfirmed).session.causes = causes) :=
  ⟨takes_headOf 0#8 rfl (by decide), rfl, takes_headOf 0#8 rfl (by decide), by decide,
    fun _ _ _ => ⟨takes_headOf 0#8 rfl (by decide), (by decide : IntakeState.accepting ≠ .off), rfl, rfl⟩⟩

theorem witness_decode_completion :
    (∀ st, (decodingLine st (darkLine 0#32)).intake.decode = some ⟨0#32, Timing.initial, Console.initial⟩ ∧
      (decodingLine st (darkLine 0#32)).intake.queue = [darkLine 0#32] ∧
      (decodingLine st (darkLine 0#32)).session.endConfirmed = false ∧ (decodingLine st (darkLine 0#32)).session.state = st) ∧
      ({ decodingLine .loaded (darkLine 0#32) with session := ⟨.loaded, CauseSet.empty, none, true⟩ } : State).session.endConfirmed =
        true ∧
      (∀ st, (0#32 : Time) ≠ (decodingLine st (darkLine 0#32)).clock ∧
        0#32 = ({ decodingLine st (darkLine 0#32) with clock := 0#32 } : State).clock) :=
  ⟨fun _ => ⟨rfl, rfl, rfl, rfl⟩, rfl, fun _ => ⟨(by decide : (0#32 : Time) ≠ 60#32), rfl⟩⟩

/-- A decode does not complete at the moment it begins, and may 1 µs later (R12). -/
theorem test_decode_completes_later_than_it_begins :
    (ran .decodeCompletion { decodingLine .loaded (darkLine 0#32) with clock := 0#32 }).intake.queue = [darkLine 0#32] ∧
      (ran .decodeCompletion { decodingLine .loaded (darkLine 0#32) with clock := 1#32 }).intake.queue = [] := by decide +kernel

/-- Section 2.3: an unset filter, and one at 33280 that moves to 33300; an edge pair 1 photosite too narrow is not valid. The runs
stand on both sides of each bound. -/
theorem witness_tracker_follows :
    (True ↔ (darkLine 0#32).leftValid = true ∧ (darkLine 0#32).rightValid = true ∧
      (darkLine 0#32).left + 3284 ≤ (darkLine 0#32).right ∧ (darkLine 0#32).right ≤ (darkLine 0#32).left + 3628) ∧
      (False ↔ ({ darkLine 0#32 with right := 3619 } : Line).leftValid = true ∧ (336 : Nat) + 3284 ≤ 3619) ∧
      2080 = ((darkLine 0#32).left + (darkLine 0#32).right) / 2 ∧ 3488 = (darkLine 0#32).right - (darkLine 0#32).left ∧
      (decodingLine .playing (darkLine 0#32)).tracker.filter = none ∧ (⟨33280, 55808⟩ : Filter) = ⟨16 * 2080, 16 * 3488⟩ ∧
      (33280 : Int) = 33280 + Int.tdiv (16 * 2080 - 33280) 8 ∧ (55808 : Int) = 55808 + Int.tdiv (16 * 3488 - 55808) 32 ∧
      (∀ tracker, ({ decodingLine .playing (darkLine 0#32) with tracker := tracker } : State).tracker = tracker ∧
        ({ decodingLine .playing (darkLine 0#32) with tracker := tracker } : State).intake.queue = [darkLine 0#32]) ∧
      (∀ run ∈ [46, 47], (⟨.holding, some ⟨33280, 55808⟩, run, 0⟩ : Tracker).state ≠ .lost) ∧
      (∀ run ∈ [6, 7], (⟨.lost, some ⟨33280, 55808⟩, 48, run⟩ : Tracker).state = .lost) :=
  ⟨by decide, by decide, by decide, by decide, rfl, rfl, by decide, by decide, fun _ => ⟨rfl, rfl⟩, by decide, by decide⟩

theorem witness_detectors_vote :
    (decodingLine .playing (darkLine 0#32)).tracker.state ≠ .lost ∧ (darkLine 0#32).validEdges = true ∧
      (some ⟨33280, 55808⟩ = some (filterAfter (decodingLine .playing (darkLine 0#32)).tracker.filter (darkLine 0#32))) ∧
      (2080 : Int) = 33280 / 16 ∧ (3488 : Int) = 55808 / 16 ∧ (516 : Int) = 512 * 3488 / 3456 ∧
      (∃ (col : Track → Int) (light : Track → Bool),
        (∀ k : Track, col k = ((2080 : Int) + (2 * (k.val : Int) - 100) * 516 / 32 + 8) / 16) ∧
        (∀ k : Track, light k = true ↔ 0 ≤ col k ∧ col k ≤ 255 ∧ (darkLine 0#32).photosites.getLsbD (col k).toNat = true)) ∧
      (∀ d : Detector, ({ decodingLine .playing (darkLine 0#32) with detectors := Vector.replicate 101 d } : State).detectors[
        (0 : Track)] = d) :=
  ⟨by decide, by decide, by decide, by decide, by decide, by decide,
    ⟨_, fun k => decide (0 ≤ ((2080 : Int) + (2 * (k.val : Int) - 100) * 516 / 32 + 8) / 16 ∧
      ((2080 : Int) + (2 * (k.val : Int) - 100) * 516 / 32 + 8) / 16 ≤ 255 ∧
      (darkLine 0#32).photosites.getLsbD (((2080 : Int) + (2 * (k.val : Int) - 100) * 516 / 32 + 8) / 16).toNat = true),
      fun _ => rfl, fun _ => by simp only [decide_eq_true_eq]⟩,
    fun d => by simp⟩

theorem witness_step_codes :
    (decodingLine .playing (darkLine 0#32)).intake.queue = [darkLine 0#32] ∧
      ∃ code : State → Bool → Nat, ∀ u bass, code u bass =
        (if u.detectors[if bass then (4 : Track) else 97].isOpen then 1 else 0) +
        (if u.detectors[if bass then (5 : Track) else 96].isOpen then 2 else 0) +
        (if u.detectors[if bass then (6 : Track) else 95].isOpen then 4 else 0) :=
  ⟨rfl, _, fun _ _ => rfl⟩

/-- A part in PLAYING with a line under decode that closes note track 5, whose key is struck, and opens note track 33. -/
def reporting : State :=
  { decodingLine .playing { darkLine 0#32 with photosites := 0xFFFFFFFFFFFFFFFFFFFFFFFFFFFFFFFFFF#256 <<< 80 } with
    struckKeys := (Vector.replicate 88 none).set 5 (some 3)
    detectors := (detectorsClosed.set 12 (.opened ⟨0#32, 0#32⟩ (.two ⟨0#32, 9#32⟩))).set 40 (.candidate ⟨0#32, 7#32⟩ 1 1) }

/-- On a line with no tracking report and no end mark: one offset and one onset. -/
theorem witness_reports :
    reporting.session.endConfirmed = false ∧ reporting.tracker.state ≠ .lost ∧ reporting.tracker.invalidRun < 47 ∧
      (ran .decodeCompletion reporting).detectors[(0 : Track)].isOpen = false ∧
      offsetReport reporting.detectors[noteTrackOf 5] (ran .decodeCompletion reporting).detectors[noteTrackOf 5] = some 9#32 ∧
      onsetReport reporting.detectors[noteTrackOf 33] (ran .decodeCompletion reporting).detectors[noteTrackOf 33] = some 7#32 ∧
      (ran .decodeCompletion reporting).queue.map Entry.seq = [1#32, 0#32] := by decide +kernel

/-- END open since position 0, and the line of a position under decode. -/
def endOpen (st : SessionState) (position : Position) : State :=
  { decodingLine st (darkLine position) with detectors := detectorsClosed.set 0 (.opened ⟨0#32, 0#32⟩ .zero) }

/-- The mark is confirmed at position 31 and not at 30 (section 2.8). -/
theorem witness_end_mark :
    (endOpen .playing 31#32).session.endConfirmed = false ∧ (endOpen .playing 31#32).tracker.state ≠ .lost ∧
      (darkLine 31#32).validEdges = true ∧
      (ran .decodeCompletion (endOpen .playing 31#32)).detectors[(0 : Track)] =
        .opened ⟨0#32, 0#32⟩ (.one ⟨31#32, 5000000#32⟩) ∧
      (ran .decodeCompletion (endOpen .playing 31#32)).session.endConfirmed = true ∧
      (ran .decodeCompletion (endOpen .playing 30#32)).session.endConfirmed = false := by decide +kernel

/-- The line of a position under decode with END open since position 0, whose right edge makes its edges invalid. -/
def endOpenInvalid (st : SessionState) (run : Nat) : State :=
  { endOpen st 31#32 with
    intake := { (endOpen st 31#32).intake with queue := [{ darkLine 31#32 with right := 3619 }] }
    tracker := { Tracker.initial with state := .holding, invalidRun := run } }

/-- The confirmation is the last report of the line of a loss: a session in STARTING is STALLED by then (R23, R35, R37). -/
theorem test_loss_before_confirmation :
    (ran .decodeCompletion (endOpenInvalid .starting 47)).session = ⟨.stalled, ⟨false, true, false⟩, none, true⟩ ∧
      (ran .decodeCompletion (endOpenInvalid .starting 46)).session.state = .returning := by
  refine ⟨?_, by decide +kernel⟩
  let t : State := { endOpenInvalid .starting 47 with intake := { Intake.initial with state := .accepting } }
  show ((t.applyDecode ⟨0#32, Timing.initial, Console.initial⟩ { darkLine 31#32 with right := 3619 }).beginDecode).session = _
  rw [State.applyDecode_report t _ _ .loss rfl (by decide +kernel)]
  cases Config.trackingReportFirst t.freeCount <;> decide +kernel

/-- Loss and regain, on both sides of their bounds, and a full queue with and without a STRIKE entry. -/
theorem witness_end_mark_reports :
    ((endOpenInvalid .playing 47).tracker.state ≠ .lost ∧ ({ darkLine 31#32 with right := 3619 } : Line).validEdges = false ∧
        47 ≤ (endOpenInvalid .playing 47).tracker.invalidRun) ∧
      ¬ 47 ≤ (endOpenInvalid .playing 46).tracker.invalidRun ∧
      (⟨.lost, some ⟨33280, 55808⟩, 48, 7⟩ : Tracker).state = .lost ∧ (darkLine 31#32).validEdges = true ∧
      (∀ tracker, ({ endOpen .stalled 31#32 with tracker := tracker } : State).tracker = tracker) ∧
      SessionState.stalled ∉ [SessionState.starting, .playing] ∧
      96 ≤ (List.replicate 96 (⟨9#32, 0#32, .release 3 (.note 5)⟩ : Entry)).length ∧
      (∀ x ∈ List.replicate 96 (⟨9#32, 0#32, .release 3 (.note 5)⟩ : Entry), x.isStrike = false) :=
  ⟨by decide, by decide, rfl, by decide, fun _ => rfl, by decide, by decide,
    fun x h => by rw [List.eq_of_mem_replicate h]; rfl⟩

theorem witness_onset :
    (standing .loaded).session.state ≠ .playing ∧ (standing .playing).session.state = .playing ∧
      -12 ≤ ({ Console.initial with transpose := -12 } : Console).transpose ∧
      ({ Console.initial with transpose := 12 } : Console).transpose ≤ 12 ∧ Timing.initial.lookAhead ≤ 500000 ∧
      ((standing .playing).clock - 0#32).toNat < 2147483648 ∧
      (∀ j, ((standing .playing).key j).owner = none) ∧
      (((standing .playing).setOwner 3 (some (.note 3))).key 3).owner = some (.note 3) ∧
      (((standing .playing).setOwner 3 (some (.note 4))).key 3).owner = some (.note 4) ∧ Owner.note 4 ≠ .note 3 := by decide

theorem witness_offset_and_pedal_change :
    (∃ due : Nat → Time, ∀ lead, due lead =
        if notLater (standing .playing).clock (0#32 + BitVec.ofNat 32 (Timing.initial.lookAhead - lead))
        then 0#32 + BitVec.ofNat 32 (Timing.initial.lookAhead - lead) else (standing .playing).clock) ∧
      (standing .playing).struckKeys[(3 : NoteTrack)] = none ∧
      ({ standing .playing with struckKeys := (standing .playing).struckKeys.set 3 (some 7) } : State).struckKeys[
        (3 : NoteTrack)] = some 7 ∧
      (standing .loaded).session.state ≠ .playing ∧ (standing .playing).session.state = .playing :=
  ⟨⟨_, fun _ => rfl⟩, by decide, by decide, by decide, by decide⟩

/-- A queue at the bound of 80 STRIKE entries: one strike of intensity 20, and 79 of intensity 30. -/
def eighty : List Entry :=
  ⟨9#32, 1#32, .strike ⟨3, .note 5, 20, 2000, 90000, 90004#32, true⟩⟩ ::
    List.replicate 79 (⟨9#32, 2#32, .strike ⟨4, .note 6, 30, 2000, 90000, 90004#32, false⟩⟩ : Entry)

/-- The clauses of an insertion: room up to 95 entries and 79 strikes, a drop candidate at 80 strikes and at 96 entries, quieter
than a strike of 21 and not than one of 20, and 96 entries without a strike. -/
theorem witness_insertions :
    strikeEntries eighty = 80 ∧ strikeEntries eighty.tail = 79 ∧
      DropCandidate eighty ⟨9#32, 1#32, .strike ⟨3, .note 5, 20, 2000, 90000, 90004#32, true⟩⟩
        ⟨3, .note 5, 20, 2000, 90000, 90004#32, true⟩ ∧
      (eighty ++ List.replicate 16 (⟨9#32, 0#32, .endMark⟩ : Entry)).length = 96 ∧
      DropCandidate (eighty ++ List.replicate 16 (⟨9#32, 0#32, .endMark⟩ : Entry))
        ⟨9#32, 1#32, .strike ⟨3, .note 5, 20, 2000, 90000, 90004#32, true⟩⟩ ⟨3, .note 5, 20, 2000, 90000, 90004#32, true⟩ ∧
      20 < 21 ∧ 20 ≤ 20 ∧ (List.replicate 96 (⟨9#32, 0#32, .release 3 .test⟩ : Entry)).length = 96 ∧
      (∀ x ∈ List.replicate 96 (⟨9#32, 0#32, .release 3 .test⟩ : Entry), x.isStrike = false) := by
  refine ⟨by decide, by decide, ⟨by simp [eighty], rfl, ?_⟩, by decide, ⟨by simp [eighty], rfl, ?_⟩, by decide, by decide,
    by decide, fun x h => by rw [List.eq_of_mem_replicate h]; rfl⟩
  · intro x hx st hst hne
    rcases List.mem_cons.mp hx with rfl | hx
    · exact absurd rfl hne
    · rw [List.eq_of_mem_replicate hx] at hst; injection hst with hst; subst hst; exact Or.inl (by decide)
  · intro x hx st hst hne
    rcases List.mem_append.mp hx with hx | hx
    · rcases List.mem_cons.mp hx with rfl | hx
      · exact absurd rfl hne
      · rw [List.eq_of_mem_replicate hx] at hst; injection hst with hst; subst hst; exact Or.inl (by decide)
    · rw [List.eq_of_mem_replicate hx] at hst; nomatch hst

theorem witness_play :
    (∀ st, (standing st).takes (headOf .C 0#8) [.C] 0 ∧ (standing st).session.state = st ∧ (standing st).drive.actEn = true ∧
      (standing st).intake.state ≠ .halted) ∧
      SessionState.playing ∉ [SessionState.loaded, .paused] ∧ SessionState.loaded ∈ [SessionState.loaded, .paused] ∧
      ({ standing .loaded with drive := Drive.initial } : State).drive.actEn = false ∧
      ({ standing .loaded with intake := { Intake.initial with state := .halted } } : State).intake.state = .halted :=
  ⟨fun _ => ⟨takes_headOf 0#8 rfl (by decide), rfl, rfl, (by decide : IntakeState.accepting ≠ .halted)⟩, by decide⟩

theorem witness_pause_and_stop :
    (∀ st, (standing st).takes (headOf .C 0#8) [.C] 0 ∧ (standing st).session.state = st) ∧
      SessionState.loaded ∉ [SessionState.starting, .playing, .stalled] ∧
      SessionState.stalled ∈ [SessionState.starting, .playing, .stalled] ∧
      SessionState.paused ∉ [SessionState.noRoll, .returning] :=
  ⟨fun _ => ⟨takes_headOf 0#8 rfl (by decide), rfl⟩, by decide⟩

theorem witness_console_requests :
    (standing .playing).takes (headOf .C 2#8) [.C] 2 ∧ (standing .playing).takes (headOf .C 1#8) [.C] 1 ∧
      (standing .playing).takes (headOf .C 4#8) [.C] 4 ∧ (standing .playing).takes (headOf .C 5#8) [.C] 5 ∧
      2 < (3#8).toNat ∧ (2#8).toNat ≤ 2 ∧ (standing .playing).takes (headOf .C 3#8) [.C] 3 ∧ 1 < (2#8).toNat ∧ (1#8).toNat ≤ 1 :=
  ⟨takes_headOf 2#8 rfl (by decide), takes_headOf 1#8 rfl (by decide), takes_headOf 4#8 rfl (by decide),
    takes_headOf 5#8 rfl (by decide), by decide, by decide, takes_headOf 3#8 rfl (by decide), by decide⟩

theorem witness_key_calibration :
    (standing .loaded).takes (headOf .S 44#8) [.S] 44 ∧ (standing .loaded).takes (headOf .S 1#8) [.S] 1 ∧ 88 ≤ (88#8).toNat ∧
      (87#8).toNat = (87 : Key).val ∧ KeyCal.default.flight[(4 : Fin 9)] < 65536 ∧
      ({ KeyCal.default with flight := Vector.replicate 9 65535 } : KeyCal).flight[(0 : Fin 9)] < 65536 :=
  ⟨takes_headOf 44#8 rfl (by decide), takes_headOf 1#8 rfl (by decide), by decide⟩

theorem witness_step_table_and_rates :
    1 = max 1 (min 256 (0#16).toNat) ∧ 256 = max 1 (min 256 (300#16).toNat) ∧
      (standing .loaded).takes (headOf .S 16#8) [.S] 16 ∧ (standing .loaded).takes (headOf .S 5#8) [.S] 5 ∧
      4 ≤ (4#8).toNat ∧ (3#8).toNat < 4 :=
  ⟨by decide, by decide, takes_headOf 16#8 rfl (by decide), takes_headOf 5#8 rfl (by decide), by decide⟩

theorem witness_pedal_curves :
    (standing .loaded).takes (headOf .S 11#8) [.S] 11 ∧
      (∀ j : Fin 5, (Vector.replicate 5 1000 : Vector Nat 5)[j] =
        min 1000 ((Vector.replicate 5 1001#16 : Vector (BitVec 16) 5)[j]).toNat) ∧ 3 ≤ (3#8).toNat :=
  ⟨takes_headOf 11#8 rfl (by decide), by decide⟩

theorem witness_timing :
    (∀ st, (standing st).takes (headOf .S 23#8) [.S] 23 ∧ (standing st).session.state = st) ∧
      SessionState.playing ∈ [SessionState.starting, .playing, .stalled] ∧
      SessionState.paused ∈ [SessionState.noRoll, .loaded, .paused, .returning] :=
  ⟨fun _ => ⟨takes_headOf 23#8 rfl (by decide), rfl⟩, by decide⟩

theorem witness_drive :
    (standing .loaded).takes (headOf .S 1#8) [.S] 1 ∧ 2 ≤ (2#8).toNat ∧ (standing .loaded).drive.faultInput = false ∧
      (standing .loaded).drive.actEn = true ∧ State.reset.takes (headOf .S 1#8) [.S] 1 ∧ State.reset.drive.faultInput = false ∧
      State.reset.drive.actEn = false ∧ (ran .faultEdge State.reset).drive.faultInput = true :=
  ⟨takes_headOf 1#8 rfl (by decide), by decide, rfl, rfl, takes_headOf 1#8 rfl (by decide), by decide⟩

theorem witness_drive_loss :
    (∀ st, (standing st).takes (headOf .S 1#8) [.S] 1 ∧ (standing st).session.state = st ∧
      (standing st).drive.faultInput = false) ∧
      SessionState.playing ∈ [SessionState.starting, .playing, .stalled] ∧
      SessionState.loaded ∉ [SessionState.starting, .playing, .stalled] :=
  ⟨fun _ => ⟨takes_headOf 1#8 rfl (by decide), rfl, rfl⟩, by decide⟩

theorem witness_test_strike :
    (∀ st, (standing st).takes (headOf .S 4#8) [.S] 4 ∧ (standing st).session.state = st ∧ (standing st).drive.actEn = true) ∧
      SessionState.playing ∉ [SessionState.noRoll, .loaded] ∧ SessionState.loaded ∈ [SessionState.noRoll, .loaded] ∧
      State.reset.drive.actEn = false ∧ 88 ≤ (88#8).toNat ∧ (87#8).toNat = (87 : Key).val ∧
      ((standing .loaded).key 87).owner = none ∧ (((standing .loaded).setOwner 87 (some .test)).key 87).owner = some .test :=
  ⟨fun _ => ⟨takes_headOf 4#8 rfl (by decide), rfl, rfl⟩, by decide⟩

theorem witness_reports_and_core_reset :
    (standing .playing).takes (headOf .S 1#8) [.S] 1 ∧ 88 ≤ (88#8).toNat ∧ (87#8).toNat = (87 : Key).val ∧
      (standing .playing).takes (headOf .S 0#8) [.S] 0 :=
  ⟨takes_headOf 1#8 rfl (by decide), by decide, by decide, takes_headOf 0#8 rfl (by decide)⟩

theorem witness_timer_expiries :
    (7#32 - 7#32).toNat < 2147483648 ∧
      ({ standing .playing with clock := 7#32, stallTimer := some 7#32 } : State).stallTimer = some 7#32 ∧
      (standing .playing).session.state = .playing ∧
      ({ standing .starting with clock := 7#32, startupTimer := some 7#32 } : State).startupTimer = some 7#32 ∧
      (standing .starting).session.state = .starting ∧ State.reset.stallTimer = none ∧ State.reset.startupTimer = none := by decide

theorem witness_ticks_and_frames :
    (({ standing .playing with clock := 5000#32 } : State).clock - (standing .playing).expressionDeadline).toNat < 2147483648 ∧
      (standing .playing).shaping.ch0.rateA ≤ 256 ∧ (standing .playing).shaping.ch0.rateB ≤ 256 ∧
      (({ standing .playing with clock := 10000#32 } : State).clock - (standing .playing).thermalDeadline).toNat < 2147483648 ∧
      (({ standing .playing with clock := 50#32 } : State).clock - (standing .playing).frameDeadline).toNat < 2147483648 ∧
      State.reset.drive.actEn = false ∧ (standing .playing).drive.actEn = true := by decide

/-- A WARM key at 16000 cools to COOL at a thermal tick, and a part at rest changes no condition. -/
theorem witness_thermal_changes :
    let s := (standing .playing).setKey 20 { KeyRecord.atReset 0#32 with heat := 16000, thermal := .warm }
    ((ran .thermalTick { s with clock := 10000#32 }).key 20).thermal ≠ (s.key 20).thermal ∧
      (∀ k, ((ran .thermalTick { standing .playing with clock := 10000#32 }).key k).thermal =
        ((standing .playing).key k).thermal) := by decide +kernel

/-- Entries of key 3 and note track 5: a strike inserted first, its release, a takeover, pedal changes and the end mark. -/
def struckEntry : Entry := ⟨4#32, 1#32, .strike ⟨3, .note 5, 20, 2000, 90000, 90004#32, false⟩⟩
def releaseEntry : Entry := ⟨5#32, 2#32, .release 3 (.note 5)⟩
def takeoverEntry : Entry := ⟨5#32, 3#32, .takeover 3 (.note 5)⟩

/-- A part with a queue at time 5. -/
def queued (st : SessionState) (queue : List Entry) : State := { standing st with clock := 5#32, queue := queue }

theorem performsNext_ripe (st : SessionState) (e : Entry) (notStrike : e.isStrike = false) (due : e.due = 5#32) :
    (queued st [e]).performsNext [] e [] ∧ (queued st [struckEntry, e]).performsNext [struckEntry] e [] :=
  ⟨⟨rfl, notStrike, by rw [due]; show ((5#32 : Time) - 5#32).toNat < 2147483648; decide, by simp⟩, ⟨rfl, notStrike, by rw [due]; show ((5#32 : Time) - 5#32).toNat < 2147483648; decide, by
    intro x hx; exact Or.inl (by rw [List.mem_singleton.mp hx]; rfl)⟩⟩

theorem witness_release_entry :
    (queued .playing [releaseEntry]).performsNext [] releaseEntry [] ∧
      (queued .playing [struckEntry, releaseEntry]).performsNext [struckEntry] releaseEntry [] ∧
      releaseEntry.action = .release 3 (.note 5) ∧ ((queued .playing [releaseEntry]).key 3).owner ≠ some (.note 5) ∧
      (((queued .playing [releaseEntry]).setOwner 3 (some (.note 5))).key 3).owner = some (.note 5) ∧
      struckEntry.isStrikeOf 3 (.note 5) = true ∧ insertedBefore struckEntry.seq releaseEntry.seq = true :=
  ⟨(performsNext_ripe .playing releaseEntry rfl rfl).1, (performsNext_ripe .playing releaseEntry rfl rfl).2, by decide⟩

theorem witness_takeover_entry :
    (queued .playing [struckEntry, takeoverEntry]).performsNext [struckEntry] takeoverEntry [] ∧
      takeoverEntry.action = .takeover 3 (.note 5) :=
  ⟨(performsNext_ripe .playing takeoverEntry rfl rfl).2, rfl⟩

theorem witness_pedal_and_end_entries :
    (∀ a : Action, (⟨5#32, 4#32, a⟩ : Entry).isStrike = false →
      (queued .playing [⟨5#32, 4#32, a⟩]).performsNext [] ⟨5#32, 4#32, a⟩ []) ∧
      (⟨5#32, 4#32, .pedal .damper 127⟩ : Entry).isStrike = false ∧ (⟨5#32, 4#32, .pedal .soft 0⟩ : Entry).isStrike = false ∧
      (⟨5#32, 4#32, .endMark⟩ : Entry).isStrike = false ∧ (queued .playing []).session.state = .playing :=
  ⟨fun a ha => (performsNext_ripe .playing ⟨5#32, 4#32, a⟩ ha rfl).1, by decide⟩

/-- A rested key, and eleven and twelve slots taken. -/
theorem witness_arbiter :
    ((queued .playing [struckEntry]).setKey 3 { KeyRecord.atReset 0#32 with phase := .idle true }).readyAfter [] struckEntry ∧
      ((queued .playing [struckEntry]).setKey 3 { KeyRecord.atReset 0#32 with phase := .idle true }).queue =
        [] ++ struckEntry :: [] ∧
      (∃ st, struckEntry.action = .strike st) ∧
      (∀ (a : List Entry) (x : Entry) (b : List Entry), [] = a ++ x :: b →
        ¬ ((queued .playing [struckEntry]).setKey 3 { KeyRecord.atReset 0#32 with phase := .idle true }).readyAfter a x) ∧
      ({ queued .playing [struckEntry] with slots := [0, 1, 2, 4, 5, 6, 7, 8, 9, 10, 11] } : State).slots.length < 12 ∧
      12 ≤ ({ queued .playing [struckEntry] with slots := [0, 1, 2, 4, 5, 6, 7, 8, 9, 10, 11, 12] } : State).slots.length ∧
      (∀ (a : List Entry) (x : Entry) (b : List Entry), (queued .playing []).queue = a ++ x :: b →
        ¬ (queued .playing []).readyAfter a x) :=
  ⟨⟨_, rfl, by decide, by decide, by simp⟩, rfl, ⟨_, rfl⟩, by simp, by decide, by decide, by simp [queued]⟩

theorem witness_key_phases :
    (∀ (p : Phase), (((standing .playing).setKey 3 { KeyRecord.atReset 0#32 with phase := p }).key 3).phase = p) ∧
      (5#32 - 5#32).toNat < 2147483648 ∧
      (standing .playing).timing.repeatGap ≤ ((4000#32 : Time) - ((standing .playing).key 3).idleSince).toNat ∧
      ({ standing .playing with pedals := { Pedals.initial with sostenuto := .pullIn 5#32 } } : State).pedals.sostenuto =
        .pullIn 5#32 :=
  ⟨fun _ => by simp [State.setKey, State.key], by decide, by decide, rfl⟩

/-- A part in PLAYING at LOCKED speed, with a pedal change and the end mark queued, an offset's key struck, and PAUSE waiting. -/
def performing : State :=
  { standing .playing with
    session := ⟨.playing, CauseSet.empty, none, true⟩
    speed := { Speed.initial with condition := .locked, outBandRun := 3 }
    stallTimer := some 100000#32
    struckKeys := (Vector.replicate 88 none).set 5 (some 3)
    queue := [⟨5#32, 1#32, .pedal .soft 127⟩, ⟨6#32, 2#32, .endMark⟩]
    nextSeq := 3#32
    pending := [.pause (headOf .C 0#8)] }

theorem performing_keys (k : Key) : performing.key k = KeyRecord.atReset 0#32 := by
  simp [performing, standing, State.key, State.reset]

theorem performing_ranges : Ranges performing where
  channels ch h := by
    simp only [List.mem_cons, List.not_mem_nil, or_false] at h
    rcases h with rfl | rfl | rfl | rfl <;> exact ⟨by decide, by decide, by decide⟩
  stepTable := by decide
  stepCodes := by decide
  rollRequests := by decide
  consoleDamper := by decide
  merged := by decide
  pedalTargets := by decide
  keyCal k := by
    have e : performing.keyCal k = KeyCal.default := by
      simp [performing, standing, State.keyCal, State.reset, Calibration.initial]
    rw [e]
    decide
  curves := by decide
  sostenutoHold := by decide
  timing := ⟨by decide, by decide, by decide, by decide, by decide, by decide, by decide, by decide⟩
  console := ⟨by decide, by decide, by decide, by decide⟩
  decode d h := nomatch h
  speed := by decide
  duties := by decide

theorem performing_keysFit : KeysFit performing where
  slots := by decide
  strikes k := by rw [performing_keys]; decide +revert
  heat k := by rw [performing_keys]; exact ⟨by decide, by decide, by decide, by decide⟩

theorem performing_entriesFit : EntriesFit performing where
  capacity := by decide
  strikes e he st h := by
    rcases List.mem_cons.mp he with rfl | he
    · nomatch h
    · rw [List.mem_singleton.mp he] at h; nomatch h
  pedals e he p v h := by
    rcases List.mem_cons.mp he with rfl | he
    · injection h with _ h; exact Or.inr h.symm
    · rw [List.mem_singleton.mp he] at h; nomatch h
  oneKey n j k h := by rw [performing_keys] at h; nomatch h
  owners o h := by
    rcases h with ⟨k, h⟩ | ⟨e, he, h⟩
    · rw [performing_keys] at h; nomatch h
    · rcases List.mem_cons.mp he with rfl | he
      · nomatch h
      · rw [List.mem_singleton.mp he] at h; nomatch h

/-- The premises of the seven invariant statements: a state with the invariant, and a next state of it. -/
theorem witness_invariant : Invariant performing ∧ ∃ t, step performing = .next t :=
  ⟨{ ranges := performing_ranges
     keys := performing_keysFit
     intake := ⟨by decide, by decide, by decide, by decide, by decide, by decide⟩
     session := ⟨by decide, by decide, by decide, by decide, by decide, by decide, by decide, by decide, by decide⟩
     notes :=
       { struckKeys := fun _ _ => rfl
         rollRequests := by decide
         pedalEntries := fun _ _ _ => rfl
         endEntries := fun _ _ _ => rfl
         silent := by intro h; exact absurd h (by decide) }
     drive := ⟨by decide, by decide, by intro h; exact absurd h (by decide), by decide⟩
     entries := performing_entriesFit },
    _, rfl⟩

end Sys2Proof.Machine
end

/-! PROOF. The roll tracker and the hole detectors (chapter 2): what a sampled line makes of each detector. -/

namespace Sys2Proof.Machine

/-! ## The geometry of a line's samples -/

theorem floorDiv_eq_div (x : Int) (n : Nat) : floorDiv x n = x / n :=
  Int.fdiv_eq_ediv_of_nonneg x (Int.natCast_nonneg n)

/-- The working centre is 2048 before the first filter value, then a sixteenth of the filter's (R20). -/
theorem workingCentre_eq {f : Option Filter} {C : Int} (unset : f = none → C = 2048)
    (filtered : ∀ g, f = some g → C = g.cf16 / 16) : (workingCentre f : Int) = C := by
  cases f with
  | none => exact (unset rfl).symm
  | some g => simp [workingCentre, filtered g rfl]

/-- The working width is 3456 before the first filter value, then a sixteenth of the filter's (R20). -/
theorem workingWidth_eq {f : Option Filter} {W : Int} (unset : f = none → W = 3456)
    (filtered : ∀ g, f = some g → W = g.wf16 / 16) : (workingWidth f : Int) = W := by
  cases f with
  | none => exact (unset rfl).symm
  | some g => simp [workingWidth, filtered g rfl]

/-- The photosite column of a track in whole divisions of the working centre and width (R21). -/
theorem trackColumn_eq (f : Option Filter) (k : Track) :
    trackColumn f k =
      ((workingCentre f : Int) + (2 * (k.val : Int) - 100) * (512 * (workingWidth f : Int) / 3456) / 32 + 8) / 16 := by
  simp [trackColumn, trackCentre, pitch, floorDiv_eq_div]

theorem sample_eq_true_iff (f : Option Filter) (l : Line) (k : Track) :
    sample f l k = true ↔
      0 ≤ trackColumn f k ∧ trackColumn f k ≤ 255 ∧ l.photosites.getLsbD (trackColumn f k).toNat = true := by
  simp [sample, and_assoc]

/-! ## A detector's sample -/

@[simp] theorem Detector.sample_closed (m : Mark) (light : Bool) :
    Detector.closed.sample m light = if light then .candidate m 1 1 else .closed := rfl

@[simp] theorem Detector.sample_candidate (first m : Mark) (seen count : Nat) (light : Bool) :
    (Detector.candidate first seen count).sample m light =
      if 2 ≤ count + light.toNat then .opened first .zero
      else if 3 ≤ seen + 1 then .closed
      else .candidate first (seen + 1) (count + light.toNat) := by
  cases light <;> rfl

@[simp] theorem Detector.sample_opened_light (onset m : Mark) (dark : DarkRun) :
    (Detector.opened onset dark).sample m true = .opened onset .zero := rfl

@[simp] theorem Detector.sample_opened_dark_zero (onset m : Mark) :
    (Detector.opened onset .zero).sample m false = .opened onset (.one m) := rfl

@[simp] theorem Detector.sample_opened_dark_one (onset m first : Mark) :
    (Detector.opened onset (.one first)).sample m false = .opened onset (.two first) := rfl

@[simp] theorem Detector.sample_opened_dark_two (onset m first : Mark) :
    (Detector.opened onset (.two first)).sample m false = .closed := rfl

@[simp] theorem sampleAll_getElem (ds : Vector Detector 101) (f : Option Filter) (l : Line) (k : Track) :
    (sampleAll ds f l)[k] = ds[k].sample ⟨l.position, l.stamp⟩ (sample f l k) := by
  simp [sampleAll]

/-! ## The lines that are sampled -/

@[simp] theorem Tracker.invalidLine_filter (t : Tracker) : t.invalidLine.tracker.filter = t.filter := by
  unfold Tracker.invalidLine
  split <;> rfl

@[simp] theorem Tracker.invalidLine_sampled (t : Tracker) : t.invalidLine.sampled = true := by
  unfold Tracker.invalidLine
  split <;> rfl

@[simp] theorem Tracker.validWhileLost_filter (t : Tracker) (f : Filter) : (t.validWhileLost f).tracker.filter = some f := by
  unfold Tracker.validWhileLost
  split <;> rfl

@[simp] theorem Tracker.validWhileLost_sampled_iff (t : Tracker) (f : Filter) :
    (t.validWhileLost f).sampled = true ↔ 7 ≤ t.validRun := by
  unfold Tracker.validWhileLost
  split <;> simp <;> omega

/-- A line with valid edges moves the filter, and no other line does (R20, R23). -/
theorem Tracker.judge_filter (t : Tracker) (l : Line) :
    (t.judge l).tracker.filter = if l.validEdges then some (filterAfter t.filter l) else t.filter := by
  by_cases valid : l.validEdges = true
  · cases lost : t.state <;> simp [Tracker.judge, valid, lost]
  · cases lost : t.state <;> simp [Tracker.judge, valid, lost]

/-- A line is sampled outside LOST, and in LOST when it is the eighth valid line of a run (R23, R24). -/
theorem Tracker.judge_sampled_iff (t : Tracker) (l : Line) :
    (t.judge l).sampled = true ↔ t.state ≠ .lost ∨ (l.validEdges = true ∧ 7 ≤ t.validRun) := by
  by_cases valid : l.validEdges = true
  · cases lost : t.state <;> simp [Tracker.judge, valid, lost]
  · cases lost : t.state <;> simp [Tracker.judge, valid, lost]

/-- A sampled line's reports leave the detectors as the samples do, wherever the tracker's report stands among them
(R28, R35). -/
theorem State.applyDecode_detectors (s : State) (d : Decode) (l : Line) (unconfirmed : s.session.endConfirmed = false)
    (sampled : (s.tracker.judge l).sampled = true) :
    (s.applyDecode d l).detectors = sampleAll s.detectors (s.tracker.judge l).tracker.filter l := by
  cases report : (s.tracker.judge l).report with
  | none => simp [State.applyDecode, unconfirmed, report, sampled]
  | some r =>
    rw [State.applyDecode_report s d l r unconfirmed report]
    split <;> simp

theorem exec_decodeCompletion_running {s : State} {d : Decode} {l : Line} {rest : List Line}
    (running : s.intake.decode = some d) (later : d.begun ≠ s.clock) (head : s.intake.queue = l :: rest) :
    exec .decodeCompletion s =
      .next ((State.applyDecode { s with intake := { s.intake with queue := rest, decode := none } } d l).beginDecode) := by
  have started : s.decodeElapsed ≠ 0 := fun h => later ((State.decodeElapsed_eq_zero running).mp h)
  have arm : exec .decodeCompletion s = .next (if s.decodeElapsed = 0 then s else s.completeDecode) := rfl
  rw [arm, if_neg started, State.completeDecode, running, head]

/-- The completion of a decode of a sampled line leaves what the samples make of the detectors; the next line's decode does
not touch them (R12, R28). -/
theorem exec_decodeCompletion_detectors {s : State} {d : Decode} {l : Line} {rest : List Line}
    (running : s.intake.decode = some d) (later : d.begun ≠ s.clock) (head : s.intake.queue = l :: rest)
    (unconfirmed : s.session.endConfirmed = false) (sampled : (s.tracker.judge l).sampled = true) :
    ∃ t, exec .decodeCompletion s = .next t ∧
      t.detectors = sampleAll s.detectors (s.tracker.judge l).tracker.filter l := by
  refine ⟨_, exec_decodeCompletion_running running later head, ?_⟩
  simp [State.applyDecode_detectors, unconfirmed, sampled]

/-- Settles O24: the completion leaves `sampleAll` of the detectors, and each detector's sample has one equation per state. -/
theorem detectorsVoteAndClose : Obligations.DetectorsVoteAndClose := by
  intro d l rest s f C W p col light running later head unconfirmed sampled hf unset filtered hp hcol hlight
  have column (k : Track) : trackColumn f k = col k := by
    rw [hcol, hp, trackColumn_eq, workingCentre_eq (fun h => (unset h).1) (fun g h => (filtered g h).1),
      workingWidth_eq (fun h => (unset h).2) (fun g h => (filtered g h).2)]
  have lit (k : Track) : sample f l k = light k := by
    rw [Bool.eq_iff_iff, sample_eq_true_iff, hlight, column]
  obtain ⟨t, next, detectors⟩ := exec_decodeCompletion_detectors running later head unconfirmed
    ((Tracker.judge_sampled_iff s.tracker l).mpr sampled)
  have moves (k : Track) : t.detectors[k] = s.detectors[k].sample ⟨l.position, l.stamp⟩ (light k) := by
    rw [detectors, Tracker.judge_filter, ← hf, sampleAll_getElem, lit]
  refine ⟨t, next, fun k => ?_⟩
  rw [moves]
  refine ⟨?closed, ?candidate, ?light, ?firstDark, ?secondDark, ?thirdDark⟩
  case closed => intro h; rw [h, Detector.sample_closed]
  case candidate => intro first seen count h; rw [h, Detector.sample_candidate]
  case light => intro onset dark h hlit; rw [h, hlit, Detector.sample_opened_light]
  case firstDark => intro onset h hdark; rw [h, hdark, Detector.sample_opened_dark_zero]
  case secondDark => intro onset m h hdark; rw [h, hdark, Detector.sample_opened_dark_one]
  case thirdDark => intro onset m h hdark; rw [h, hdark, Detector.sample_opened_dark_two]

end Sys2Proof.Machine

/-! PROOF. The performance session (chapter 4): what STOP makes of each session state. -/

namespace Sys2Proof.Machine

/-! ## The outcomes of STOP (R67) -/

theorem onlyAnswers_stop_of_noRoll {h : Head} {s : State} (ht : s.takes h [.C] 0) (hs : s.session.state = .noRoll) :
    OnlyAnswers (.stop h) h (refusal h .busy) s :=
  onlyAnswers_refusedC ht rfl (by simp [hs])

theorem onlyAnswers_stop_of_returning {h : Head} {s : State} (ht : s.takes h [.C] 0) (hs : s.session.state = .returning) :
    OnlyAnswers (.stop h) h (okReply h) s :=
  OnlyAnswers.of_answer (exec_request_answered ht (onC_of_mem ht.2.1) rfl (by simp [hs, taken]))

/-- In the five states that are neither NO_ROLL nor RETURNING the STOP's frame ends, RETURNING is entered with cause STOP, and
the reply is placed. -/
theorem exec_stop_enters {h : Head} {s : State} (ht : s.takes h [.C] 0)
    (hs : s.session.state ∉ [SessionState.noRoll, .returning]) :
    exec (.stop h) s = .next (((s.heard h).enterReturning .stop).answer h.link (okReply h)) := by
  refine exec_request_answered ht (onC_of_mem ht.2.1) rfl ?_
  have hheard : (s.heard h).session.state = s.session.state := by simp
  cases hst : s.session.state with
  | noRoll => simp [hst] at hs
  | returning => simp [hst] at hs
  | loaded | starting | playing | paused | stalled => simp only [hheard, hst, taken]

/-! ## An answered entry to RETURNING -/

/-- An entry to RETURNING at a request touches the links and what the entry itself sets; every other field stands (R67, R74). -/
theorem State.answered_enterReturning_frame (s : State) (h : Head) (c : LastCause) (r : Reply) :
    { ((s.heard h).enterReturning c).answer h.link r with
      linkT := s.linkT, linkC := s.linkC, linkS := s.linkS, session := s.session, queue := s.queue, strikes := s.strikes
      slots := s.slots, keys := s.keys, struckKeys := s.struckKeys, pedals := s.pedals, shaping := s.shaping
      speed := s.speed, startupTimer := s.startupTimer, stallTimer := s.stallTimer, intake := s.intake } = s := by
  apply State.eq_of_fields <;> simp

/-- Settles O31: NO_ROLL and RETURNING only answer, and every other state makes the entry that `State.enterReturning_spec`
describes, between the end of the request's frame and its reply. -/
theorem stopRewindsTheRoll : Obligations.StopRewindsTheRoll := by
  intro h s ht
  refine ⟨onlyAnswers_stop_of_noRoll ht, onlyAnswers_stop_of_returning ht, fun hs => ?_⟩
  obtain ⟨session, raises, silences, stops, intake⟩ := (s.heard h).enterReturning_spec .stop
  refine ⟨_, exec_stop_enters ht hs, Answers.of_raises _ raises, silences.heard.answer _ _, stops.heard.answer _ _, ?_, ?_,
    s.answered_enterReturning_frame h .stop _⟩
  · simp [session]
  · simp [intake]

end Sys2Proof.Machine

/-! PROOF. The shaping engine (chapter 5): what an expression tick makes of the four channels. -/

namespace Sys2Proof.Machine

/-! ## The chosen rate and the step (R81, R82, R85) -/

theorem Channel.glideRate_le {c : Channel} {n : Nat} (ha : c.rateA ≤ n) (hb : c.rateB ≤ n) (glideOpen : Bool) :
    c.glideRate glideOpen ≤ n := by
  cases glideOpen with
  | false => exact ha
  | true => exact hb

theorem Channel.directionRate_le {c : Channel} {n : Nat} (ha : c.rateA ≤ n) (hb : c.rateB ≤ n) : c.directionRate ≤ n := by
  unfold Channel.directionRate
  split
  · exact ha
  · exact hb

/-- The level `level` is neither below nor above both the channel's level and its target. -/
def Channel.Brackets (c : Channel) (level : Nat) : Prop := min c.level c.target ≤ level ∧ level ≤ max c.level c.target

theorem Channel.brackets_level (c : Channel) : c.Brackets c.level := ⟨Nat.min_le_left _ _, Nat.le_max_left _ _⟩

/-- A running channel's step stays between its level and its target, at any rate the clamp of R83 lets through (R85). -/
theorem Channel.brackets_step (c : Channel) {rate : Nat} (h : rate ≤ 256) : c.Brackets (c.step rate).level := by
  rw [Channel.step_eq_approached]
  exact c.approached_between rate h

/-- A channel that runs only while `running` holds is frozen at its level otherwise (R86). -/
theorem Channel.brackets_stepWhile (c : Channel) {rate : Nat} (h : rate ≤ 256) (running : Bool) :
    c.Brackets (if running then c.step rate else c).level := by
  cases running with
  | false => exact c.brackets_level
  | true => exact c.brackets_step h

/-! ## The tick (R84 to R86) -/

/-- With rates of at most 256 no channel passes its target at a tick. -/
theorem Shaping.tick_brackets (sh : Shaping) (playing bassGlide trebleGlide : Bool) {ch : Shaping → Channel}
    (hch : ch ∈ [Shaping.ch0, Shaping.ch1, Shaping.ch2, Shaping.ch3])
    (ha : (ch sh).rateA ≤ 256) (hb : (ch sh).rateB ≤ 256) :
    (ch sh).Brackets (ch (sh.tick playing bassGlide trebleGlide)).level := by
  simp only [List.mem_cons, List.not_mem_nil, or_false] at hch
  obtain rfl | rfl | rfl | rfl := hch
  · exact sh.ch0.brackets_stepWhile (Channel.glideRate_le ha hb bassGlide) playing
  · exact sh.ch1.brackets_stepWhile (Channel.glideRate_le ha hb trebleGlide) playing
  · exact sh.ch2.brackets_step (Channel.directionRate_le ha hb)
  · exact sh.ch3.brackets_step (Channel.directionRate_le ha hb)

theorem exec_expressionTick_of_reached {s : State} (h : (s.clock - s.expressionDeadline).toNat < 2147483648) :
    exec .expressionTick s = .next s.expressionTick := by
  show execExpressionTick s = _
  rw [execExpressionTick, if_pos (reached_of_lt h)]

/-- The shaping engine after a tick, each channel's step written by its distance from the target. -/
theorem State.expressionTick_shaping (s : State) :
    s.expressionTick.shaping = { s.shaping with
      ch0 := if s.session.state = .playing then
          s.shaping.ch0.approached (s.shaping.ch0.glideRate (s.trackOpen trackBassGlide)) else s.shaping.ch0
      ch1 := if s.session.state = .playing then
          s.shaping.ch1.approached (s.shaping.ch1.glideRate (s.trackOpen trackTrebleGlide)) else s.shaping.ch1
      ch2 := s.shaping.ch2.approached s.shaping.ch2.directionRate
      ch3 := s.shaping.ch3.approached s.shaping.ch3.directionRate } := by
  simp only [State.expressionTick, Shaping.tick, Channel.step_eq_approached, beq_iff_eq]

/-- A tick touches the shaping engine and its own deadline only. -/
theorem State.expressionTick_others (s : State) :
    { s.expressionTick with shaping := s.shaping, expressionDeadline := s.expressionDeadline } = s := by
  apply State.eq_of_fields <;> simp

/-- Settles O46: a tick at its deadline is `State.expressionTick`, whose channels step by `Channel.approached` and stay
between their level and their target. -/
theorem channelsApproachTheirTargets : Obligations.ChannelsApproachTheirTargets := by
  intro s due
  refine ⟨s.expressionTick, exec_expressionTick_of_reached due, s.expressionTick_shaping, ?between, rfl,
    s.expressionTick_others⟩
  case between =>
    intro ch hch ha hb
    exact s.shaping.tick_brackets _ _ _ hch ha hb

end Sys2Proof.Machine

/-! PROOF. The action queue and key actuation (chapter 8): what a drive loss, a performed release or takeover, and the
arbiter do. -/

namespace Sys2Proof.Machine

/-! ## Drive losses (R148, R167 to R169) -/

/-- A reply placed behind a drive loss touches nothing that the loss wrote. -/
theorem LosesDrive.answer {s t : State} {c : LastCause} (loss : LosesDrive s t c) (l : Link) (r : Reply) :
    LosesDrive s (t.answer l r) c where
  paused running := by
    obtain ⟨silences, stops, session⟩ := loss.paused running
    exact ⟨silences.answer l r, stops.answer l r, by simp [session]⟩
  unmoved resting := by simpa [State.key] using loss.unmoved resting
  others := by
    rw [← loss.others]
    cases l <;> rfl

theorem exec_driveDisable_of_takes {h : Head} {s : State} (ht : s.takes h [.S] 1) :
    exec (.driveDisable h) s = .next (((s.heard h).driveLoss .driveOff).answer h.link (okReply h)) :=
  exec_request_answered ht (onS_of_mem ht.2.1) rfl rfl

theorem exec_faultEdge_of_inactive {s : State} (inactive : s.drive.faultInput = false) :
    exec .faultEdge s = .next ({ s with drive := { s.drive with faultInput := true } } : State).faultEffects := by
  show execFaultEdge s = _
  simp [execFaultEdge, inactive]

/-- The effects of a fault edge: the latch, FAULT, and a drive loss (R168). -/
theorem State.faultEffects_spec (s : State) :
    LosesDrive s s.faultEffects .fault ∧
      Raises s s.faultEffects (if s.session.state ∈ [SessionState.starting, .playing, .stalled] then 0x81#8 else 0x80#8) ∧
      s.faultEffects.drive = { s.drive with actEn := false, faultLatch := true } := by
  have latched : Raises s ({ s with drive := { s.drive with faultLatch := true } } : State) 0#8 := Raises.none rfl rfl rfl
  obtain ⟨loss, raises, drive⟩ :=
    (({ s with drive := { s.drive with faultLatch := true } } : State).raise .fault).driveLoss_spec .fault
  refine ⟨loss.of rfl, ?_, drive⟩
  have kinds : (0#8 ||| EventKind.fault.bit) |||
      (if s.session.state ∈ [SessionState.starting, .playing, .stalled] then 0x01#8 else 0#8) =
      if s.session.state ∈ [SessionState.starting, .playing, .stalled] then 0x81#8 else 0x80#8 := by
    split <;> rfl
  rw [← kinds]
  exact (latched.raise .fault).trans raises

/-- Settles O40: both events run `State.driveLoss`, the request between the end of its frame and its reply, the fault edge behind
the latch and the raised FAULT. -/
theorem driveLossEmptiesAndPauses : Obligations.DriveLossEmptiesAndPauses := by
  intro h s
  refine ⟨fun ht => ?disable, fun inactive => ?faultEdge⟩
  case disable =>
    obtain ⟨loss, raises, drive⟩ := (s.heard h).driveLoss_spec .driveOff
    refine ⟨_, exec_driveDisable_of_takes ht, by simp [drive], ?_, ?_⟩
    · exact (loss.of (by apply State.eq_of_fields <;> simp)).answer h.link _
    · simpa using Answers.of_raises (okReply h) raises
  case faultEdge =>
    obtain ⟨loss, raises, drive⟩ := ({ s with drive := { s.drive with faultInput := true } } : State).faultEffects_spec
    exact ⟨_, exec_faultEdge_of_inactive inactive, drive, loss.of rfl, raises⟩

/-! ## Performed releases (R134) -/

/-- The entry to perform next leaves the queue and its release is performed (R133). -/
theorem exec_releaseEntryPerform_of {s : State} {pre post : List Entry} {e : Entry} {k : Key} {m : Owner}
    (next : s.performsNext pre e post) (release : e.action = .release k m) :
    exec .releaseEntryPerform s = .next (({ s with queue := pre ++ post } : State).performRelease k m e.seq) := by
  show Host.Outcome.next (s.performNext Action.isRelease) = _
  rw [State.performNext_of next (by rw [release]; rfl), release]
  rfl

theorem State.performRelease_of_owner_ne {s : State} {k : Key} {m : Owner} (other : (s.key k).owner ≠ some m)
    (seq : BitVec 32) : s.performRelease k m seq = s := if_pos other

/-- The owner's earliest-inserted strike before the release takes the release-after mark (R134, case 2). -/
theorem State.performRelease_of_earliest {s : State} {k : Key} {m : Owner} {seq : BitVec 32} {first : Entry}
    (own : (s.key k).owner = some m)
    (earliest : earliestInserted (s.queue.filter fun x => x.isStrikeOf k m && insertedBefore x.seq seq) = some first) :
    s.performRelease k m seq = { s with queue := s.queue.map fun x => if x = first then x.marked else x } := by
  rw [State.performRelease, if_neg (not_not_intro own), earliest]

@[simp] theorem State.hasStrikeOf_setKey (s : State) (j k : Key) (r : KeyRecord) (m : Owner) :
    (s.setKey j r).hasStrikeOf k m = s.hasStrikeOf k m := rfl

/-- A key's new record loses its owner m, unless a strike of m for the key stands (R104). -/
theorem State.clearOwnerOf_setKey (s : State) (k : Key) (r : KeyRecord) (m : Owner) :
    (s.setKey k r).clearOwnerOf k m =
      s.setKey k { r with owner := if r.owner = some m ∧ s.hasStrikeOf k m = false then none else r.owner } := by
  rw [State.clearOwnerOf, State.key_setKey_same, State.hasStrikeOf_setKey]
  by_cases cleared : r.owner = some m ∧ s.hasStrikeOf k m = false
  · rw [if_pos cleared, if_pos (by simpa using cleared), State.setOwner, State.key_setKey_same, State.setKey_setKey]
  · rw [if_neg cleared, if_neg (by simpa using cleared)]

/-- With no earlier strike of its owner the release acts on the key's phase, and the owner stays only for a strike of it that
was inserted later (R104; R134, case 3). -/
theorem State.performRelease_of_no_strike {s : State} {k : Key} {m : Owner} {seq : BitVec 32}
    (own : (s.key k).owner = some m)
    (unstruck : ∀ x ∈ s.queue, x.isStrikeOf k m = true → insertedBefore x.seq seq = false) :
    s.performRelease k m seq = s.setKey k { s.key k with
      phase := s.releasedPhase k, owner := if s.hasStrikeOf k m then some m else none } := by
  have nil : s.queue.filter (fun x => x.isStrikeOf k m && insertedBefore x.seq seq) = [] := by
    simpa [List.filter_eq_nil_iff] using unstruck
  rw [State.performRelease, if_neg (not_not_intro own), nil]
  show (s.releasePhase k).clearOwnerOf k m = _
  rw [State.releasePhase_eq, State.clearOwnerOf_setKey]
  cases s.hasStrikeOf k m <;> simp [own]

/-- Settles O49: the three cases of `State.performRelease`, on the queue without the release. -/
theorem releaseActsForItsOwnerOnly : Obligations.ReleaseActsForItsOwnerOnly := by
  intro s pre post e k m next release
  rw [exec_releaseEntryPerform_of next release]
  refine ⟨fun other => ?otherOwner, fun first mem own strike earlier earliest => ?marks, fun own unstruck => ?acts⟩
  case otherOwner =>
    exact congrArg Host.Outcome.next <|
      State.performRelease_of_owner_ne (s := { s with queue := pre ++ post }) other e.seq
  case marks =>
    refine congrArg Host.Outcome.next <|
      State.performRelease_of_earliest (s := { s with queue := pre ++ post }) own (earliestInserted_of _ first ?_ ?_)
    · simp [List.mem_filter, List.mem_append.mp mem, strike, earlier]
    · intro x hx
      obtain ⟨hmem, hcand⟩ := List.mem_filter.mp hx
      obtain ⟨hstrike, hbefore⟩ := Bool.and_eq_true_iff.mp hcand
      exact earliest x hmem hstrike hbefore
  case acts =>
    refine ⟨_, rfl, ?_⟩
    rw [State.performRelease_of_no_strike (s := { s with queue := pre ++ post }) own unstruck]
    exact ⟨rfl, State.key_setKey_same _ k _, fun j hj => State.key_setKey_other _ _ hj, rfl⟩

/-! ## Performed takeovers (R135) -/

theorem exec_takeoverReleasePerform_of {s : State} {pre post : List Entry} {e : Entry} {k : Key} {m : Owner}
    (next : s.performsNext pre e post) (takeover : e.action = .takeover k m) :
    exec .takeoverReleasePerform s = .next (({ s with queue := pre ++ post } : State).performTakeover k m e.seq) := by
  show Host.Outcome.next (s.performNext Action.isTakeover) = _
  rw [State.performNext_of next (by rw [takeover]; rfl), takeover]
  rfl

/-- Settles O50: `State.performTakeover_eq` on the queue without the takeover. -/
theorem takeoverEndsTheDisplacedNote : Obligations.TakeoverEndsTheDisplacedNote := by
  intro s pre post e k m next takeover
  refine ⟨_, exec_takeoverReleasePerform_of next takeover, ?_⟩
  rw [State.performTakeover_eq]
  exact ⟨rfl, State.key_setKey_same _ k _, fun j hj => State.key_setKey_other _ _ hj, rfl⟩

/-! ## The arbiter (R137, R138, R141, R142) -/

/-- An event that is raised only under a condition. -/
theorem Raises.raise_if {s t : State} {kinds : BitVec 8} (ht : Raises s t kinds) (c : Prop) [Decidable c] (e : EventKind) :
    Raises s (if c then t.raise e else t) (kinds ||| if c then e.bit else 0#8) := by
  split
  · exact ht.raise e
  · simpa using ht

/-- A started strike before its events are raised: key record, slot and counters (R138, R141). -/
def State.struck (s : State) (st : Strike) : State :=
  { s.setKey st.key ((s.key st.key).startStrike st s.clock) with
    slots := s.slots ++ [st.key]
    strikes := { s.strikes with
      performed := satAdd s.strikes.performed 1
      late := if st.isLate s.clock then satAdd s.strikes.late 1 else s.strikes.late } }

/-- A started strike raises LATE when it is late and HEAT when it changes the key's condition (R142, R173). -/
theorem State.startStrike_raises (s : State) (st : Strike) :
    Raises s (s.startStrike st) ((if st.isLate s.clock then 0x10#8 else 0#8) |||
      if ((s.key st.key).startStrike st s.clock).thermal = (s.key st.key).thermal then 0#8 else 0x40#8) := by
  have struck : Raises s (s.struck st) 0#8 := Raises.none rfl rfl rfl
  have raised := (struck.raise_if (st.isLate s.clock = true) .late).raise_if
    (¬ ((s.key st.key).startStrike st s.clock).thermal = (s.key st.key).thermal) .heat
  rw [ite_not, ite_not, BitVec.zero_or] at raised
  exact raised

/-- Beside the events it raises a started strike does what `State.struck` says. -/
theorem State.startStrike_unraised (s : State) (st : Strike) :
    { s.startStrike st with linkT := s.linkT, linkC := s.linkC, linkS := s.linkS } = s.struck st := by
  unfold State.startStrike
  dsimp only
  split <;> split <;> rfl

theorem State.key_startStrike (s : State) (st : Strike) (j : Key) :
    (s.startStrike st).key j = if j = st.key then (s.key st.key).startStrike st s.clock else s.key j := by
  have keys := congrArg State.keys (s.startStrike_unraised st)
  exact (State.key_congr keys j).trans (s.key_setKey st.key j _)

/-- A ready entry stands at its first place in the queue: an equal one ahead of it would be ready as well. -/
theorem State.erase_firstReady {s : State} {pre : List Entry} {e : Entry} (post : List Entry) (ready : s.readyAfter pre e)
    (first : ∀ a x b, pre = a ++ x :: b → ¬ s.readyAfter a x) : (pre ++ e :: post).erase e = pre ++ post := by
  have fresh : e ∉ pre := by
    intro mem
    obtain ⟨a, b, split⟩ := List.append_of_mem mem
    obtain ⟨st, strike, ripe, rested, clear⟩ := ready
    exact first a e b split ⟨st, strike, ripe, rested, fun y hy => clear y (by simp [split, hy])⟩
  rw [List.erase_append_right _ fresh, List.erase_cons_head]

theorem exec_strikeStart_of_ready {s : State} {pre post : List Entry} {e : Entry} {st : Strike} (free : s.slots.length < 12)
    (queue : s.queue = pre ++ e :: post) (strike : e.action = .strike st) (ready : s.readyAfter pre e)
    (first : ∀ a x b, pre = a ++ x :: b → ¬ s.readyAfter a x) :
    exec .strikeStart s = .next (({ s with queue := pre ++ post } : State).startStrike st) := by
  have granted : s.grantable = some (e, st) := by
    rw [State.grantable, if_pos (by exact free), queue]
    exact firstReady_some s pre post [] e st strike ready first
  show Host.Outcome.next s.grant = _
  simp only [State.grant, granted, queue, State.erase_firstReady post ready first]

theorem exec_strikeStart_of_not_ready {s : State}
    (idle : 12 ≤ s.slots.length ∨ ∀ a x b, s.queue = a ++ x :: b → ¬ s.readyAfter a x) :
    exec .strikeStart s = .next s := by
  have refused : s.grantable = none := by
    rw [State.grantable]
    obtain full | unready := idle
    · exact if_neg (Nat.not_lt.mpr full)
    · rw [firstReady_none s s.queue [] unready, ite_self]
  show Host.Outcome.next s.grant = _
  simp only [State.grant, refused]

/-- Settles O52: the arbiter grants the first ready entry, and the granted strike's start is read off field by field. -/
theorem arbiterStartsTheFirstReadyStrike : Obligations.ArbiterStartsTheFirstReadyStrike := by
  intro s
  refine ⟨fun pre post e st free queue strike ready first => ?starts, exec_strikeStart_of_not_ready⟩
  case starts =>
    have unraised := State.startStrike_unraised { s with queue := pre ++ post } st
    have records := State.key_startStrike { s with queue := pre ++ post } st
    have started := (records st.key).trans (if_pos rfl)
    refine ⟨_, st.isLate s.clock, exec_strikeStart_of_ready free queue strike ready first, ?late, ?queue, ?slots, ?strikes,
      ?record, ?thermal, ?otherKeys, ?raises, ?others⟩
    case late => exact decide_eq_true_iff
    case queue => exact congrArg State.queue unraised
    case slots => exact congrArg State.slots unraised
    case strikes =>
      simp only [← satAdd_eq_bump]
      exact congrArg State.strikes unraised
    case record => rw [started]; rfl
    case thermal => rw [started]; exact Thermal.evaluate_moves _ _
    case otherKeys => exact fun j other => (records j).trans (if_neg other)
    case raises => rw [started]; exact State.startStrike_raises _ st
    case others =>
      exact congrArg (fun t : State => { t with
        queue := s.queue, slots := s.slots, strikes := s.strikes, keys := s.keys }) unraised

end Sys2Proof.Machine

/-! PROOF. Link ports, requests and events (chapter 11): what the status reports, the event requests and the attention line make
of a link's port. -/

namespace Sys2Proof.Machine

/-! ## Requests of any link that report (R183, R187) -/

/-- A request permitted on any link whose step 5 only reports answers OK with the report of the state it heard. -/
theorem onlyAnswers_report {i : Instr} {h : Head} {s : State} {n : Nat} {report : State → List Byte} {payload : List Byte}
    (ht : s.takes h [.T, .C, .S] n) (hx : exec i s = .next (s.request h onAny n fun s => takenWith s (report s)))
    (hr : report (s.heard h) = payload) : OnlyAnswers i h ⟨.ok, h.tag, payload⟩ s :=
  OnlyAnswers.of_answer (exec_request_answered ht rfl hx (by rw [takenWith, hr]))

/-- The demand byte by session state: bit 0 while the roll is to run, bit 1 while it is to return, never both (R50). -/
theorem State.demandByte_eq (s : State) :
    (if s.runDemand then 1#8 else 0#8) ||| (if s.returnDemand then 2#8 else 0#8) =
      if s.session.state = .starting ∨ s.session.state = .playing then 1#8
      else if s.session.state = .returning then 2#8 else 0#8 := by
  unfold State.runDemand State.returnDemand
  cases s.session.state <;> rfl

/-- The TRANSPORT_STATUS fields one by one; the last ratio is two bytes, the low one first (R50, R183). -/
theorem State.transportPayload_eq (s : State) :
    s.transportPayload =
      [s.session.state.code,
       (if s.session.state = .starting ∨ s.session.state = .playing then 1#8
        else if s.session.state = .returning then 2#8 else 0#8),
       BitVec.ofInt 8 s.speed.trim, BitVec.ofNat 8 s.speed.lastRatio, BitVec.ofNat 8 (s.speed.lastRatio / 256),
       s.speed.condition.code, s.intake.state.code, BitVec.ofNat 8 (16 - s.intake.queue.length), s.tracker.state.code] ++
      leBytes 4 (s.intake.lastPosition.getD 0#32).toNat := by
  rw [State.transportPayload, State.demandByte_eq]
  rfl

/-- A request's frame touches its link only, so the status reports read the same before and after it. -/
theorem State.transportPayload_heard (s : State) (h : Head) : (s.heard h).transportPayload = s.transportPayload := by
  simp [State.transportPayload, State.runDemand, State.returnDemand]

theorem State.performancePayload_heard (s : State) (h : Head) : (s.heard h).performancePayload = s.performancePayload := by
  simp [State.performancePayload]

theorem State.eventsPayload_heard (s : State) (h : Head) (l : Link) :
    ((s.heard h).link l).eventsPayload = (s.link l).eventsPayload := by
  rw [State.link_heard]
  split <;> rfl

/-- Settles O10: both requests only report, and the frame that carries them changes no field of the reports. -/
theorem statusReadsReportAndChangeNothing : Obligations.StatusReadsReportAndChangeNothing := by
  intro h s ht
  constructor
  case left => exact onlyAnswers_report ht rfl ((s.transportPayload_heard h).trans s.transportPayload_eq)
  case right => exact onlyAnswers_report ht rfl (s.performancePayload_heard h)

/-! ## Requests of any link that change its port (R186, R187) -/

/-- Only the links tell a state with a replaced port from the state before. -/
theorem State.setLink_others (s : State) (l : Link) (p : LinkPort) :
    { s.setLink l p with linkT := s.linkT, linkC := s.linkC, linkS := s.linkS } = s := by
  cases l <;> rfl

/-- A request permitted on any link whose step 5 changes the requesting port by `change` replaces that one port: the changed
port after the end of the transaction, with an OK reply in its slot. -/
theorem exec_changesPort {i : Instr} {h : Head} {s : State} {n : Nat} (change : LinkPort → LinkPort)
    (ht : s.takes h [.T, .C, .S] n)
    (hx : exec i s = .next (s.request h onAny n fun s => taken (s.setLink h.link (change (s.link h.link))))) :
    exec i s = .next (s.setLink h.link { change ((s.heard h).link h.link) with slot := okReply h }) := by
  rw [exec_request_answered ht rfl hx rfl]
  simp [State.answer, State.heard, State.endTransaction, okReply]

/-- A kind is in the latch after an acknowledgement exactly when it was there and is not acknowledged; the latch's eight bits
bound the complement's (R186). -/
theorem getLsbD_acked (latch kinds : BitVec 8) (n : Nat) :
    (latch &&& ~~~kinds).getLsbD n = (latch.getLsbD n && !kinds.getLsbD n) := by
  rw [BitVec.getLsbD_and, BitVec.getLsbD_not]
  by_cases hn : n < 8
  · simp [hn]
  · simp [BitVec.getLsbD_of_ge latch n (Nat.le_of_not_lt hn)]

theorem onlyAnswers_readEvents {h : Head} {s : State} (ht : s.takes h [.T, .C, .S] 0) :
    OnlyAnswers (.readEvents h) h ⟨.ok, h.tag, [(s.link h.link).latch, (s.link h.link).mask]⟩ s :=
  onlyAnswers_report ht rfl (s.eventsPayload_heard h h.link)

theorem exec_ackEvents_of_takes {h : Head} {s : State} (kinds : BitVec 8) (ht : s.takes h [.T, .C, .S] 1) :
    exec (.ackEvents h kinds) s =
      .next (s.setLink h.link { (s.heard h).link h.link with
        latch := ((s.heard h).link h.link).latch &&& ~~~kinds, slot := okReply h }) :=
  exec_changesPort (fun p => { p with latch := p.latch &&& ~~~kinds }) ht rfl

theorem exec_setEventMask_of_takes {h : Head} {s : State} (kinds : BitVec 8) (ht : s.takes h [.T, .C, .S] 1) :
    exec (.setEventMask h kinds) s =
      .next (s.setLink h.link { (s.heard h).link h.link with mask := kinds, slot := okReply h }) :=
  exec_changesPort (fun p => { p with mask := kinds }) ht rfl

/-- The end of a transaction leaves latch, mask and discard count of its port, and the port is idle after it (R176). -/
@[simp] theorem State.heard_port (s : State) (h : Head) :
    ((s.heard h).link h.link).latch = (s.link h.link).latch ∧ ((s.heard h).link h.link).mask = (s.link h.link).mask ∧
    ((s.heard h).link h.link).discards = (s.link h.link).discards ∧ ((s.heard h).link h.link).transaction = .idle := by
  simp [State.link_heard]

/-- Settles O11: READ_EVENTS only reports; the two others replace the requesting link's port, which differs from the port
before in what `exec_ackEvents_of_takes` and `exec_setEventMask_of_takes` write and in the ended transaction. -/
theorem eventRequestsActOnOneLink : Obligations.EventRequestsActOnOneLink := by
  intro h kinds s
  refine ⟨onlyAnswers_readEvents, fun ht => ⟨?ack, ?mask⟩⟩
  case ack =>
    refine ⟨_, exec_ackEvents_of_takes kinds ht, fun n => ?latch, by simp, by simp, by simp, by simp,
      fun m => s.link_setLink_other _, s.setLink_others _ _⟩
    case latch => simp only [State.link_setLink_same, getLsbD_acked, State.heard_port]
  case mask =>
    exact ⟨_, exec_setEventMask_of_takes kinds ht, by simp, by simp, by simp, by simp, by simp,
      fun m => s.link_setLink_other _, s.setLink_others _ _⟩

/-! ## The attention line (R188) -/

/-- A set of kinds is not empty exactly when some kind is in it. -/
theorem ne_zero_iff_exists_getLsbD {w : Nat} (x : BitVec w) : x ≠ 0#w ↔ ∃ n, x.getLsbD n = true := by
  rw [ne_eq, BitVec.zero_iff_eq_false]
  simp

/-- Settles O12: the pending set is the intersection of latch and mask, and attention says it is not empty. -/
theorem attentionIffAKindIsLatchedAndMasked : Obligations.AttentionIffAKindIsLatchedAndMasked := by
  intro l s
  rw [State.attention, bne_iff_ne, ne_zero_iff_exists_getLsbD]
  simp only [LinkPort.pendingSet, BitVec.getLsbD_and, Bool.and_eq_true]

end Sys2Proof.Machine

/-! PROOF. The invariant, the player's half: figures, keys, notes, drive and action queue, and what a move of the queue may do. -/

namespace Sys2Proof.Machine

/-! ## The player's half of the invariant -/

/-- The parts of the invariant that speak of figures, keys, notes, drive and queue entries. They rest on each other and on no
other part. -/
structure PlayerFits (s : State) : Prop where
  ranges : Ranges s
  keys : KeysFit s
  notes : NotesFit s
  drive : DriveFits s
  entries : EntriesFit s

theorem Invariant.player {s : State} (inv : Invariant s) : PlayerFits s :=
  ⟨inv.ranges, inv.keys, inv.notes, inv.drive, inv.entries⟩

/-- The session states that stand silent (R74). -/
def SessionState.IsSilent (st : SessionState) : Prop := st ∈ [SessionState.starting, .paused, .stalled, .returning]

/-- TEST owns keys and entries in NO_ROLL and LOADED alone, a note track in PLAYING alone (R104). -/
def OwnerFits (st : SessionState) (o : Owner) : Prop :=
  (o = .test → st = .noRoll ∨ st = .loaded) ∧ ∀ n, o = .note n → st = .playing

/-- A state lets an entry stand in its queue: what the invariant asks of one queued entry. -/
structure State.Admits (s : State) (e : Entry) : Prop where
  powered : s.drive.actEn = true
  notSilent : ¬ s.session.state.IsSilent
  strike : ∀ st, e.action = .strike st → 500 ≤ st.width ∧ st.width ≤ 25000 ∧ st.intensity ≤ 127
  pedal : ∀ p v, e.action = .pedal p v → v = 0 ∨ v = 127
  playing : e.action.isPedal = true ∨ e.action.isEnd = true → s.session.state = .playing
  confirmed : e.action.isEnd = true → s.session.endConfirmed = true
  owner : ∀ o, e.owner? = some o → OwnerFits s.session.state o

theorem State.Admits.congr {s t : State} {e : Entry} (h : s.Admits e) (session : t.session = s.session)
    (drive : t.drive = s.drive) : t.Admits e := by
  obtain ⟨powered, notSilent, strike, pedal, playing, confirmed, owner⟩ := h
  rw [← drive] at powered
  rw [← session] at notSilent playing confirmed owner
  exact ⟨powered, notSilent, strike, pedal, playing, confirmed, owner⟩

/-- The capacities of the action queue (R130). -/
def HoldsCapacity (q : List Entry) : Prop := q.length ≤ 96 ∧ strikeEntries q ≤ 80

theorem PlayerFits.admits {s : State} (fits : PlayerFits s) : ∀ e ∈ s.queue, s.Admits e := by
  intro e he
  have waiting : s.queue ≠ [] := List.ne_nil_of_mem he
  exact
    { powered := by
        by_contra off
        exact waiting (fits.drive.lost (by simpa using off)).1
      notSilent := fun silent => waiting (fits.notes.silent silent).1
      strike := fits.entries.strikes e he
      pedal := fits.entries.pedals e he
      playing := fits.notes.pedalEntries e he
      confirmed := fits.notes.endEntries e he
      owner := fun o ho => fits.entries.owners o (.inr ⟨e, he, ho⟩) }

theorem PlayerFits.ownerFits {s : State} (fits : PlayerFits s) {k : Key} {o : Owner} (own : (s.key k).owner = some o) :
    OwnerFits s.session.state o :=
  fits.entries.owners o (.inl ⟨k, own⟩)

/-! ## Moves of the action queue -/

/-- What a move of the action queue may do to a key record: it starts and heats nothing, and claims no key. -/
structure KeyRecord.Eased (r r' : KeyRecord) : Prop where
  heat : r'.heat = r.heat
  thermal : r'.thermal = r.thermal
  strike : r'.phase.isStrike = r.phase.isStrike
  sounding : r'.phase.isSounding = true → r.phase.isSounding = true
  owner : r'.owner = r.owner ∨ r'.owner = none

theorem KeyRecord.Eased.refl (r : KeyRecord) : r.Eased r := ⟨rfl, rfl, rfl, id, .inl rfl⟩

theorem KeyRecord.Eased.of_eq {r r' : KeyRecord} (h : r' = r) : r.Eased r' := h ▸ .refl r

theorem KeyRecord.Eased.trans {r r' r'' : KeyRecord} (h : r.Eased r') (h' : r'.Eased r'') : r.Eased r'' where
  heat := h'.heat.trans h.heat
  thermal := h'.thermal.trans h.thermal
  strike := h'.strike.trans h.strike
  sounding := h.sounding ∘ h'.sounding
  owner := h'.owner.elim (fun same => same ▸ h.owner) .inr

theorem KeyRecord.Eased.withOwner_none (r : KeyRecord) : r.Eased { r with owner := none } := ⟨rfl, rfl, rfl, id, .inr rfl⟩

theorem State.eased_released (s : State) (k : Key) : (s.key k).Eased { s.key k with phase := s.releasedPhase k } := by
  refine ⟨rfl, rfl, ?_, ?_, .inl rfl⟩
  all_goals
    unfold State.releasedPhase
    cases (s.key k).phase <;> simp [Phase.isStrike, Phase.isSounding]

/-- From s to t only links, queue, its counters and key records have changed, as inserting, dropping, performing and marking
entries may change them. -/
structure QueueMoves (s t : State) : Prop where
  others : t = { s with
    linkT := t.linkT, linkC := t.linkC, linkS := t.linkS, queue := t.queue, nextSeq := t.nextSeq, strikes := t.strikes
    keys := t.keys }
  capacity : HoldsCapacity s.queue → HoldsCapacity t.queue
  admitted : (∀ e ∈ s.queue, s.Admits e) → ∀ e ∈ t.queue, s.Admits e
  keys : ∀ k, (s.key k).Eased (t.key k)

theorem QueueMoves.session {s t : State} (h : QueueMoves s t) : t.session = s.session := by rw [h.others]
theorem QueueMoves.drive {s t : State} (h : QueueMoves s t) : t.drive = s.drive := by rw [h.others]

theorem QueueMoves.refl (s : State) : QueueMoves s s := ⟨rfl, id, id, fun _ => .refl _⟩

theorem QueueMoves.trans {s t u : State} (h : QueueMoves s t) (h' : QueueMoves t u) : QueueMoves s u where
  others := by
    have ht := h.others
    generalize t.linkT = a1, t.linkC = a2, t.linkS = a3, t.queue = a4, t.nextSeq = a5, t.strikes = a6, t.keys = a7 at ht
    subst ht
    exact h'.others
  capacity := h'.capacity ∘ h.capacity
  admitted hs e he :=
    (h'.admitted (fun x hx => (h.admitted hs x hx).congr h.session h.drive) e he).congr h.session.symm h.drive.symm
  keys k := (h.keys k).trans (h'.keys k)

/-- A move of the queue keeps the player's half of the invariant. -/
theorem PlayerFits.of_queueMoves {s t : State} (fits : PlayerFits s) (h : QueueMoves s t) : PlayerFits t := by
  have admits := h.admitted fits.admits
  have capacity := h.capacity fits.entries.capacity
  have eased := h.keys
  have ht := h.others
  have owner_kept (k : Key) {o : Owner} (own : (t.key k).owner = some o) : (s.key k).owner = some o := by
    rcases (eased k).owner with same | none
    · rw [← same, own]
    · rw [none] at own; cases own
  have quiet {k : Key} (hs : (s.key k).phase.isSounding = false) : (t.key k).phase.isSounding = false := by
    by_contra hc
    rw [(eased k).sounding (by simpa using hc)] at hs
    cases hs
  have empty (stop : ∀ e, ¬ s.Admits e) : t.queue = [] := List.eq_nil_iff_forall_not_mem.2 fun e he => stop e (admits e he)
  generalize t.linkT = a1, t.linkC = a2, t.linkS = a3, t.queue = q, t.nextSeq = a5, t.strikes = a6, t.keys = ks at *
  subst ht
  exact
    { ranges := { fits.ranges with }
      keys :=
        { slots := fits.keys.slots
          strikes := fun k => (fits.keys.strikes k).trans (by rw [(eased k).strike])
          heat := fun k => by
            have := fits.keys.heat k
            unfold KeyRecord.ThermalFits at this ⊢
            rwa [(eased k).heat, (eased k).thermal] }
      notes :=
        { fits.notes with
          pedalEntries := fun e he => (admits e he).playing
          endEntries := fun e he => (admits e he).confirmed
          silent := fun silent => by
            obtain ⟨-, slots, keys⟩ := fits.notes.silent silent
            refine ⟨empty fun e h => h.notSilent silent, slots, fun k => ⟨quiet (keys k).1, ?_⟩⟩
            rcases (eased k).owner with same | none
            · rw [same]; exact (keys k).2
            · exact none }
      drive :=
        { fits.drive with
          lost := fun off => by
            obtain ⟨-, slots, keys⟩ := fits.drive.lost off
            refine ⟨empty fun e h => ?_, slots, fun k => quiet (keys k)⟩
            have on : s.drive.actEn = true := h.powered
            rw [show s.drive.actEn = false from off] at on
            cases on }
      entries :=
        { capacity := capacity
          strikes := fun e he => (admits e he).strike
          pedals := fun e he => (admits e he).pedal
          oneKey := fun n j k hj hk => fits.entries.oneKey n j k (owner_kept j hj) (owner_kept k hk)
          owners := fun o ho => by
            rcases ho with ⟨k, own⟩ | ⟨e, he, own⟩
            · exact fits.ownerFits (owner_kept k own)
            · exact (admits e he).owner o own } }

end Sys2Proof.Machine

/-! PROOF. The invariant: inserting, dropping, performing and marking entries are moves of the action queue (chapter 8). -/

namespace Sys2Proof.Machine

/-! ## Dropping, marking, placing -/

theorem dropBetter_eq_or (best e : Entry) : dropBetter best e = best ∨ dropBetter best e = e := by
  unfold dropBetter
  (repeat' split) <;> simp

theorem foldl_dropBetter_mem (e : Entry) (es : List Entry) : es.foldl dropBetter e ∈ e :: es := by
  induction es generalizing e with
  | nil => simp
  | cons x xs ih =>
    have step := ih (dropBetter e x)
    rcases dropBetter_eq_or e x with h | h <;> rw [h] at step <;> simp only [List.foldl_cons, h] <;> grind

theorem mem_of_dropCandidate {q : List Entry} {c : Entry} (h : dropCandidate q = some c) : c ∈ q ∧ c.isStrike = true := by
  unfold dropCandidate at h
  split at h
  · cases h
  · rename_i e es hf
    rw [Option.some.injEq] at h
    have := foldl_dropBetter_mem e es
    rw [h, ← hf, List.mem_filter] at this
    exact this

/-- A queue without a drop candidate holds no STRIKE entry. -/
theorem isStrike_false_of_dropCandidate_none {q : List Entry} (h : dropCandidate q = none) : ∀ x ∈ q, x.isStrike = false := by
  unfold dropCandidate at h
  split at h
  · rename_i hf
    simpa [List.filter_eq_nil_iff] using hf
  · cases h

theorem Entry.isStrike_of_action {e : Entry} {st : Strike} (h : e.action = .strike st) : e.isStrike = true := by
  simp [Entry.isStrike, h]

theorem Entry.exists_strike {e : Entry} (h : e.isStrike = true) : ∃ st, e.action = .strike st := by
  unfold Entry.isStrike at h
  cases ha : e.action <;> simp_all

/-- A marked entry is a strike with its mark set, or the entry itself. -/
theorem Entry.marked_cases (e : Entry) :
    (∃ st, e.action = .strike st ∧ e.marked = { e with action := .strike { st with releaseAfter := true } }) ∨
      e.marked = e := by
  unfold Entry.marked
  cases e.action <;> simp

theorem Entry.isStrike_marked (e : Entry) : e.marked.isStrike = e.isStrike := by
  rcases e.marked_cases with ⟨st, strike, h⟩ | h
  · rw [h, Entry.isStrike_of_action strike]; rfl
  · rw [h]

theorem State.Admits.marked {s : State} {e : Entry} (h : s.Admits e) : s.Admits e.marked := by
  rcases e.marked_cases with ⟨st, strike, hm⟩ | hm
  · rw [hm]
    have width := h.strike st strike
    have own := h.owner st.owner (by simp [Entry.owner?, strike])
    refine ⟨h.powered, h.notSilent, ?_, ?_, ?_, ?_, ?_⟩
    · rintro _ ⟨⟩; exact width
    · rintro _ _ ⟨⟩
    · simp [Action.isPedal, Action.isEnd]
    · simp [Action.isEnd]
    · rintro _ ⟨⟩; exact own
  · rwa [hm]

theorem HoldsCapacity.sublist {p q : List Entry} (h : HoldsCapacity q) (sub : p.Sublist q) : HoldsCapacity p :=
  ⟨sub.length_le.trans h.1, (sub.countP_le).trans h.2⟩

/-- Marking entries changes neither their number nor the number of STRIKE entries. -/
theorem HoldsCapacity.mark {q : List Entry} (h : HoldsCapacity q) (f : Entry → Bool) :
    HoldsCapacity (q.map fun e => if f e then e.marked else e) := by
  have same : Entry.isStrike ∘ (fun e => if f e then e.marked else e) = Entry.isStrike := by
    funext e
    simp only [Function.comp]
    split
    · exact e.isStrike_marked
    · rfl
  refine ⟨by simpa using h.1, ?_⟩
  simpa [strikeEntries, List.countP_map, same] using h.2

/-- An entry placed behind the removal of a STRIKE entry. -/
theorem HoldsCapacity.replace {q : List Entry} (h : HoldsCapacity q) {c : Entry} (hc : c ∈ q) (strike : c.isStrike = true)
    (e : Entry) : HoldsCapacity (placeEntry e (q.erase c)) := by
  have hlen := List.length_erase_add_one hc
  have hcount : strikeEntries (q.erase c) + 1 = strikeEntries q := by
    unfold strikeEntries
    have := List.countP_erase Entry.isStrike q c
    have pos : 0 < q.countP Entry.isStrike := List.countP_pos_iff.2 ⟨c, hc, strike⟩
    simp [hc, strike] at this
    omega
  unfold HoldsCapacity at h ⊢
  rw [placeEntry_length, placeEntry_strikes]
  simp only [strikeEntries, List.countP_cons] at *
  constructor
  · omega
  · split <;> omega

/-! ## Insertions as moves of the queue -/

/-- A queue that is filtered or marked is one whose entries were admitted before. -/
theorem QueueMoves.withQueue (s : State) (q : List Entry) (capacity : HoldsCapacity s.queue → HoldsCapacity q)
    (admitted : (∀ e ∈ s.queue, s.Admits e) → ∀ e ∈ q, s.Admits e) : QueueMoves s { s with queue := q } :=
  ⟨rfl, capacity, admitted, fun _ => .refl _⟩

theorem QueueMoves.erase (s : State) (e : Entry) : QueueMoves s { s with queue := s.queue.erase e } :=
  .withQueue s _ (fun h => h.sublist List.erase_sublist) fun h _ hx => h _ (List.mem_of_mem_erase hx)

theorem QueueMoves.takeSeq (s : State) : QueueMoves s s.takeSeq := ⟨rfl, id, id, fun _ => .refl _⟩

theorem QueueMoves.countDrop (s : State) : QueueMoves s s.countDrop := ⟨rfl, id, id, fun _ => .refl _⟩

theorem QueueMoves.clearOwnerOf (s : State) (k : Key) (t : Owner) : QueueMoves s (s.clearOwnerOf k t) := by
  unfold State.clearOwnerOf
  split
  · refine ⟨rfl, id, id, fun j => ?_⟩
    rw [State.setOwner, State.key_setKey]
    split
    · subst j; exact .withOwner_none _
    · exact .refl _
  · exact .refl _

theorem QueueMoves.clearDroppedOwner (s : State) (e : Entry) : QueueMoves s (s.clearDroppedOwner e) := by
  unfold State.clearDroppedOwner
  cases e.strike? with
  | none => exact .refl _
  | some st =>
    dsimp only
    split
    · exact .clearOwnerOf _ _ _
    · exact .refl _

theorem QueueMoves.replaceEntry (s : State) {c : Entry} (e : Entry) (hc : dropCandidate s.queue = some c)
    (he : s.Admits e) : QueueMoves s (s.replaceEntry c e) := by
  obtain ⟨mem, strike⟩ := mem_of_dropCandidate hc
  refine ((QueueMoves.withQueue s _ (fun h => h.replace mem strike e) fun h x hx => ?_).trans (.countDrop _)).trans
    (.clearDroppedOwner _ _)
  rcases mem_placeEntry.1 hx with rfl | hx
  · exact he
  · exact h x (List.mem_of_mem_erase hx)

theorem QueueMoves.place (s : State) (e : Entry) (room : s.queue.length < 96)
    (few : e.isStrike = true → strikeEntries s.queue < 80) (he : s.Admits e) :
    QueueMoves s { s with queue := placeEntry e s.queue } := by
  refine .withQueue s _ (fun h => ?_) fun h x hx => ?_
  · obtain ⟨-, strikes⟩ := h
    refine ⟨by rw [placeEntry_length]; omega, ?_⟩
    rw [placeEntry_strikes]
    simp only [strikeEntries, List.countP_cons] at *
    split
    · have := few ‹_›; omega
    · omega
  · rcases mem_placeEntry.1 hx with rfl | hx
    · exact he
    · exact h x hx

theorem State.insertStrike_moves (s : State) (due : Time) (st : Strike) (he : s.Admits ⟨due, s.nextSeq, .strike st⟩) :
    QueueMoves s (s.insertStrike due st) := by
  have admitted : s.takeSeq.Admits ⟨due, s.nextSeq, .strike st⟩ := he.congr rfl rfl
  refine (QueueMoves.takeSeq s).trans ?_
  unfold State.insertStrike
  dsimp only
  split
  · cases hc : dropCandidate s.takeSeq.queue with
    | none => exact .countDrop _
    | some c =>
      obtain ⟨b, hb⟩ := Entry.exists_strike (mem_of_dropCandidate hc).2
      simp only [Entry.strike?_eq_some.2 hb]
      split
      · exact .replaceEntry _ _ hc admitted
      · exact .countDrop _
  · rename_i room
    rw [not_or, strikeCapacity, queueCapacity] at room
    exact .place _ _ (by omega) (fun _ => by omega) admitted

/-- The insertion of another entry moves the queue, or performs the entry at once on a full queue without a STRIKE (R132). -/
theorem State.insertOther_moves (s : State) (due : Time) (a : Action) (noStrike : ∀ st, a ≠ .strike st)
    (he : s.Admits ⟨due, s.nextSeq, a⟩) :
    QueueMoves s (s.insertOther due a) ∨ s.insertOther due a = s.takeSeq.perform a s.nextSeq := by
  have admitted : s.takeSeq.Admits ⟨due, s.nextSeq, a⟩ := he.congr rfl rfl
  unfold State.insertOther
  dsimp only
  split
  · cases hc : dropCandidate s.takeSeq.queue with
    | none => exact .inr rfl
    | some c => exact .inl ((QueueMoves.takeSeq s).trans (.replaceEntry _ _ hc admitted))
  · rename_i room
    rw [queueCapacity] at room
    refine .inl ((QueueMoves.takeSeq s).trans (.place _ _ (by omega) (fun strike => ?_) admitted))
    obtain ⟨st, h⟩ := Entry.exists_strike strike
    exact absurd h (noStrike st)

/-! ## Performed releases and takeovers -/

theorem QueueMoves.releasePhase (s : State) (k : Key) : QueueMoves s (s.releasePhase k) := by
  rw [State.releasePhase_eq]
  refine ⟨rfl, id, id, fun j => ?_⟩
  rw [State.key_setKey]
  split
  · subst j; exact s.eased_released k
  · exact .refl _

theorem QueueMoves.mark (s : State) (f : Entry → Bool) :
    QueueMoves s { s with queue := s.queue.map fun e => if f e then e.marked else e } := by
  refine .withQueue s _ (fun h => h.mark f) fun h x hx => ?_
  obtain ⟨y, hy, rfl⟩ := List.mem_map.1 hx
  split
  · exact (h y hy).marked
  · exact h y hy

theorem QueueMoves.filter (s : State) (f : Entry → Bool) : QueueMoves s { s with queue := s.queue.filter f } :=
  .withQueue s _ (fun h => h.sublist List.filter_sublist) fun h _ hx => h _ (List.mem_of_mem_filter hx)

theorem QueueMoves.performRelease (s : State) (k : Key) (t : Owner) (seq : BitVec 32) :
    QueueMoves s (s.performRelease k t seq) := by
  unfold State.performRelease
  split
  · exact .refl _
  · split
    · simpa using QueueMoves.mark s fun e => e = _
    · exact (QueueMoves.releasePhase s k).trans (.clearOwnerOf _ k t)

theorem QueueMoves.performTakeover (s : State) (k : Key) (m : Owner) (seq : BitVec 32) :
    QueueMoves s (s.performTakeover k m seq) :=
  ((QueueMoves.mark s fun e => e.isStrikeOf k m && insertedBefore e.seq seq).trans (.filter _ _)).trans (.releasePhase _ k)

theorem QueueMoves.makeRoom (s : State) : QueueMoves s s.makeRoom := by
  unfold State.makeRoom
  split
  · split
    · exact .refl _
    · exact ((QueueMoves.erase s _).trans (.countDrop _)).trans (.clearDroppedOwner _ _)
  · exact .refl _

/-- The insertion of a takeover release, performed at once or not, is a move of the queue. -/
theorem State.insertTakeover_moves (s : State) (due : Time) (k : Key) (m : Owner)
    (he : s.Admits ⟨due, s.nextSeq, .takeover k m⟩) : QueueMoves s (s.insertOther due (.takeover k m)) := by
  rcases s.insertOther_moves due (.takeover k m) (by simp) he with moves | performed
  · exact moves
  · rw [performed]; exact (QueueMoves.takeSeq s).trans (.performTakeover _ k m _)

theorem State.insertRelease_moves (s : State) (due : Time) (k : Key) (t : Owner)
    (he : s.Admits ⟨due, s.nextSeq, .release k t⟩) : QueueMoves s (s.insertOther due (.release k t)) := by
  rcases s.insertOther_moves due (.release k t) (by simp) he with moves | performed
  · exact moves
  · rw [performed]; exact (QueueMoves.takeSeq s).trans (.performRelease _ k t _)

theorem State.insertPerformed_moves (s : State) (k : Key) (m : Owner) : QueueMoves s (s.insertPerformed (.takeover k m)) :=
  ((QueueMoves.takeSeq s).trans (.makeRoom _)).trans (.performTakeover _ k m _)

end Sys2Proof.Machine

/-! PROOF. The invariant: the silence notice, the entries of the session states and the drive loss (chapters 4, 9 and 10). -/

namespace Sys2Proof.Machine

/-! ## Merged pedals and silence -/

/-- The speed monitor's figures in range (R42, R43, R46). -/
def Speed.InRange (m : Speed) : Prop :=
  100 ≤ m.nominalRate ∧ m.nominalRate ≤ 1500 ∧ 128 ≤ m.tempo ∧ m.tempo ≤ 512 ∧ m.lastRatio ≤ 65535 ∧ -125 ≤ m.trim ∧
    m.trim ≤ 125

theorem Speed.InRange.inactive {m : Speed} (h : m.InRange) : m.inactive.InRange := by
  unfold Speed.InRange Speed.inactive at *
  dsimp only
  omega

theorem Speed.InRange.restarted {m : Speed} (h : m.InRange) : ({ m.inactive with lastRatio := 0 } : Speed).InRange := by
  unfold Speed.InRange Speed.inactive at *
  dsimp only
  omega

theorem mergePosition_le {mode : ShadingMode} {roll console : Nat} (hr : roll ≤ 127) (hc : console ≤ 127) :
    mergePosition mode roll console ≤ 127 := by
  cases mode <;> simp [mergePosition, hr, hc]

theorem requestOf_mem (b : Bool) : requestOf b ∈ [0, 127] := by cases b <;> simp [requestOf]

theorem le_of_mem_requests {v : Nat} (h : v ∈ [0, 127]) : v ≤ 127 := by
  simp only [List.mem_cons, List.not_mem_nil, or_false] at h
  omega

/-- With its former targets as R80 has them, the shaping engine formed for two merged positions has R80's targets for these. -/
theorem Ranges.shapingFor_targets {s : State} (r : Ranges s) (damper soft : Nat) :
    (s.shapingFor damper soft).ch2.target = damper * 1023 / 127 * 64 ∧
      (s.shapingFor damper soft).ch3.target = soft * 1023 / 127 * 64 := by
  simp only [State.shapingFor, levelStep]
  refine ⟨?_, ?_⟩
  · split
    · rename_i h; rw [h]; exact r.pedalTargets.1
    · rfl
  · split
    · rename_i h; rw [h]; exact r.pedalTargets.2
    · rfl

theorem Ranges.shapingFor_channels {s : State} (r : Ranges s) {damper soft : Nat} (hd : damper ≤ 127) (hs : soft ≤ 127) :
    ∀ ch ∈ [Shaping.ch0, Shaping.ch1, Shaping.ch2, Shaping.ch3], (ch (s.shapingFor damper soft)).InRange := by
  obtain ⟨t2, t3⟩ := r.shapingFor_targets damper soft
  have channels := r.channels
  simp only [List.forall_mem_cons, List.not_mem_nil, false_implies, implies_true, and_true] at channels ⊢
  obtain ⟨h0, h1, h2, h3⟩ := channels
  exact ⟨h0, h1, ⟨h2.level, by rw [t2]; omega, h2.rates⟩, ⟨h3.level, by rw [t3]; omega, h3.rates⟩⟩

/-- A state whose pedal merge has been formed again keeps the figures in range (R80, R155, R156). -/
theorem Ranges.reformed {s t : State} (r : Ranges s)
    (shaping : t.shaping = s.shapingFor t.pedals.mergedDamper t.pedals.mergedSoft)
    (merged : t.pedals.mergedDamper = t.damperMerge ∧ t.pedals.mergedSoft = t.softMerge)
    (requests : t.pedals.rollDamper ∈ [0, 127] ∧ t.pedals.rollSoft ∈ [0, 127]) (consoleDamper : t.pedals.consoleDamper ≤ 127)
    (detectors : t.detectors = s.detectors) (calibration : t.calibration = s.calibration) (timing : t.timing = s.timing)
    (console : t.console.InRange) (decode : ∀ d, t.intake.decode = some d → s.intake.decode = some d)
    (speed : t.speed.InRange) (duties : t.drive.duties = s.drive.duties) : Ranges t where
  channels := by
    rw [shaping]
    refine r.shapingFor_channels ?_ ?_
    · rw [merged.1]; exact mergePosition_le (le_of_mem_requests requests.1) consoleDamper
    · rw [merged.2]; exact mergePosition_le (le_of_mem_requests requests.2) (le_of_mem_requests (requestOf_mem _))
  stepTable := by rw [shaping]; exact r.stepTable
  stepCodes := by
    have bass : t.bassCode = s.bassCode := by simp only [State.bassCode, State.trackOpen, detectors]
    have treble : t.trebleCode = s.trebleCode := by simp only [State.trebleCode, State.trackOpen, detectors]
    rw [shaping, bass, treble]
    exact r.stepCodes
  rollRequests := requests
  consoleDamper := consoleDamper
  merged := merged
  pedalTargets := by rw [shaping]; exact r.shapingFor_targets _ _
  keyCal k := by rw [State.keyCal_congr calibration]; exact r.keyCal k
  curves := by rw [calibration]; exact r.curves
  sostenutoHold := by rw [calibration]; exact r.sostenutoHold
  timing := by rw [timing]; exact r.timing
  console := console
  decode d h := r.decode d (decode d h)
  speed := speed
  duties := by rw [duties]; exact r.duties

/-- t follows s by an event that is silent: the notice's effects, and nothing else of the player's blocks but the session and the
drive's levels (R74). -/
structure Quieted (s t : State) : Prop where
  silences : Silences s t
  detectors : t.detectors = s.detectors
  calibration : t.calibration = s.calibration
  timing : t.timing = s.timing
  console : t.console = s.console
  decode : ∀ d, t.intake.decode = some d → s.intake.decode = some d
  speed : s.speed.InRange → t.speed.InRange
  duties : t.drive.duties = s.drive.duties

theorem State.cutPhase_isSounding (s : State) (k : Key) : (s.cutPhase k).isSounding = false := by
  unfold State.cutPhase
  cases (s.key k).phase <;> rfl

theorem State.cutPhase_isStrike (s : State) (k : Key) : (s.cutPhase k).isStrike = false := by
  unfold State.cutPhase
  cases (s.key k).phase <;> rfl

/-- A silent event keeps the player's half of the invariant, whatever state the session goes to. -/
theorem PlayerFits.quieted {s t : State} (ranges : Ranges s) (keys : KeysFit s) (h : Quieted s t)
    (running : t.session.state ∈ [SessionState.starting, .playing, .stalled] → t.drive.actEn = true)
    (latch : (t.drive.faultInput = true → t.drive.faultLatch = true) ∧ (t.drive.actEn = true → t.drive.faultLatch = false))
    (sostenuto : s.pedals.sostenuto ≠ .off ↔ s.pedals.consoleSostenuto = true ∧ t.drive.actEn = true) : PlayerFits t where
  ranges := by
    have pedals := h.silences.pedals
    refine ranges.reformed ?_ ?_ ?_ ?_ h.detectors h.calibration h.timing ?_ h.decode (h.speed ranges.speed) h.duties
    · rw [pedals]; exact h.silences.shaping
    · simp only [State.damperMerge, State.softMerge, pedals, h.console]
      exact ⟨rfl, rfl⟩
    · rw [pedals]; simp [State.silentPedals]
    · rw [pedals]; exact ranges.consoleDamper
    · rw [h.console]; exact ranges.console
  keys :=
    { slots := by rw [h.silences.slots]; simp
      strikes := fun k => by rw [h.silences.slots, h.silences.keys]; simp [State.cutPhase_isStrike]
      heat := fun k => by rw [h.silences.keys]; exact keys.heat k }
  notes :=
    { struckKeys := fun n hn => absurd (h.silences.struckKeys n) hn
      rollRequests := by rw [h.silences.pedals]; simp [State.silentPedals]
      pedalEntries := by rw [h.silences.queue]; simp
      endEntries := by rw [h.silences.queue]; simp
      silent := fun _ => ⟨h.silences.queue, h.silences.slots, fun k => by
        rw [h.silences.keys]; exact ⟨s.cutPhase_isSounding k, rfl⟩⟩ }
  drive :=
    { running := running
      latch := latch
      lost := fun _ => ⟨h.silences.queue, h.silences.slots, fun k => by
        rw [h.silences.keys]; exact s.cutPhase_isSounding k⟩
      sostenuto := by rw [h.silences.pedals]; exact sostenuto }
  entries :=
    { capacity := by rw [h.silences.queue]; simp [strikeEntries]
      strikes := by rw [h.silences.queue]; simp
      pedals := by rw [h.silences.queue]; simp
      oneKey := fun n j k hj => by rw [h.silences.keys] at hj; cases hj
      owners := fun o ho => by
        rcases ho with ⟨k, own⟩ | ⟨e, he, -⟩
        · rw [h.silences.keys] at own; cases own
        · rw [h.silences.queue] at he; cases he }

/-- A silent event that leaves the drive as it is. -/
theorem PlayerFits.quieted_driven {s t : State} (fits : PlayerFits s) (h : Quieted s t) (drive : t.drive = s.drive)
    (running : t.session.state ∈ [SessionState.starting, .playing, .stalled] → s.drive.actEn = true) : PlayerFits t := by
  refine .quieted fits.ranges fits.keys h ?_ ?_ ?_ <;> rw [drive]
  · exact running
  · exact fits.drive.latch
  · exact fits.drive.sostenuto

/-! ## Entries of the session -/

theorem StopsRunning.speed_inRange {s t : State} (h : StopsRunning s t) (hs : s.speed.InRange) : t.speed.InRange := by
  rw [h.speed]
  split
  · exact hs.inactive
  · exact hs

theorem State.enterPaused_quieted (s : State) (c : Option LastCause) : Quieted s (s.enterPaused c) := by
  obtain ⟨-, -, silences, stops⟩ := s.enterPaused_spec c
  exact ⟨silences, by simp, by simp, by simp, by simp, by simp, stops.speed_inRange, by simp⟩

theorem State.enterStalled_quieted (s : State) (c : StallCause) : Quieted s (s.enterStalled c) := by
  obtain ⟨-, -, silences, stops⟩ := s.enterStalled_spec c
  exact ⟨silences, by simp, by simp, by simp, by simp, by simp, stops.speed_inRange, by simp⟩

theorem State.enterReturning_quieted (s : State) (c : LastCause) : Quieted s (s.enterReturning c) := by
  obtain ⟨-, -, silences, stops, intake⟩ := s.enterReturning_spec c
  exact ⟨silences, by simp, by simp, by simp, by simp, by simp [intake], stops.speed_inRange, by simp⟩

/-- The first part of an entry to STARTING leaves all else as it is. -/
@[simp] theorem State.begunStarting_frame (s : State) :
    s.begunStarting.clock = s.clock ∧ s.begunStarting.intake = s.intake ∧ s.begunStarting.tracker = s.tracker ∧
    s.begunStarting.detectors = s.detectors ∧ s.begunStarting.expressionDeadline = s.expressionDeadline ∧
    s.begunStarting.console = s.console ∧ s.begunStarting.calibration = s.calibration ∧
    s.begunStarting.timing = s.timing ∧ s.begunStarting.nextSeq = s.nextSeq ∧ s.begunStarting.drive = s.drive ∧
    s.begunStarting.frameDeadline = s.frameDeadline ∧ s.begunStarting.thermalDeadline = s.thermalDeadline ∧
    s.begunStarting.freeCount = s.freeCount ∧ s.begunStarting.pending = s.pending := by
  simp [State.begunStarting]

theorem State.begunStarting_quieted (s : State) : Quieted s s.begunStarting := by
  obtain ⟨-, -, silences, -, speed, -⟩ := s.begunStarting_spec
  exact ⟨silences, by simp, by simp, by simp, by simp, by simp, fun h => by rw [speed]; exact h.restarted, by simp⟩

theorem PlayerFits.enterPaused {s : State} (fits : PlayerFits s) (c : Option LastCause) : PlayerFits (s.enterPaused c) :=
  fits.quieted_driven (s.enterPaused_quieted c) (by simp) (by simp [(s.enterPaused_spec c).1, Session.movedTo])

theorem PlayerFits.enterReturning {s : State} (fits : PlayerFits s) (c : LastCause) : PlayerFits (s.enterReturning c) :=
  fits.quieted_driven (s.enterReturning_quieted c) (by simp) (by simp [(s.enterReturning_spec c).1, Session.movedTo])

theorem PlayerFits.enterStalled {s : State} (fits : PlayerFits s) (powered : s.drive.actEn = true) (c : StallCause) :
    PlayerFits (s.enterStalled c) :=
  fits.quieted_driven (s.enterStalled_quieted c) (by simp) fun _ => powered

theorem PlayerFits.enterStarting {s : State} (fits : PlayerFits s) (powered : s.drive.actEn = true) :
    PlayerFits s.enterStarting := by
  have begun := fits.quieted_driven s.begunStarting_quieted (by simp) fun _ => powered
  rw [State.enterStarting_cases]
  split
  · exact begun.enterReturning _
  · split
    · exact begun.enterStalled (by simpa using powered) _
    · exact begun

theorem PlayerFits.powered {s : State} (fits : PlayerFits s)
    (running : s.session.state ∈ [SessionState.starting, .playing, .stalled]) : s.drive.actEn = true :=
  fits.drive.running running

theorem PlayerFits.reportStall {s : State} (fits : PlayerFits s) (c : StallCause) : PlayerFits (s.reportStall c) := by
  unfold State.reportStall
  split
  · exact fits.enterStalled (fits.powered (by simp [*])) c
  · exact fits.enterStalled (fits.powered (by simp [*])) c
  · exact ⟨{ fits.ranges with }, { fits.keys with }, { fits.notes with }, { fits.drive with }, { fits.entries with }⟩
  all_goals exact fits

theorem PlayerFits.reportStallEnd {s : State} (fits : PlayerFits s) (c : StallCause) : PlayerFits (s.reportStallEnd c) := by
  unfold State.reportStallEnd
  dsimp only
  split
  · rename_i stalled
    have ended : PlayerFits { s with session := { s.session with causes := s.session.causes.remove c } } :=
      ⟨{ fits.ranges with }, { fits.keys with }, { fits.notes with }, { fits.drive with }, { fits.entries with }⟩
    split
    · exact ended.enterStarting (fits.powered (by simp [stalled.1]))
    · exact ended
  · exact fits

theorem PlayerFits.driveLoss {s : State} (ranges : Ranges s) (keys : KeysFit s) (notes : NotesFit s) (entries : EntriesFit s)
    (latch : s.drive.faultInput = true → s.drive.faultLatch = true) (c : LastCause) : PlayerFits (s.driveLoss c) := by
  obtain ⟨loss, -, drive⟩ := s.driveLoss_spec c
  by_cases running : s.session.state ∈ [SessionState.starting, .playing, .stalled]
  · obtain ⟨silences, stops, session⟩ := loss.paused running
    refine .quieted (s := { s with pedals := { s.pedals with sostenuto := .off } }) { ranges with } { keys with }
      ⟨silences, by simp, by simp, by simp, by simp, by simp, stops.speed_inRange, by simp [drive]⟩ ?_ ?_ ?_
    · simp [session, Session.movedTo]
    · simpa [drive] using latch
    · simp [drive]
  · obtain ⟨queue, -, slots, key, pedals, session, struckKeys, shaping, speed, -, -⟩ := loss.unmoved running
    have detectors : (s.driveLoss c).detectors = s.detectors := by simp
    refine ⟨?_, ?_, ?_, ?_, ?_⟩
    · have e : (s.driveLoss c).shaping = s.shapingFor s.pedals.mergedDamper s.pedals.mergedSoft := by
        rw [shaping]; simp [State.shapingFor]
      refine ranges.reformed (by rw [e, pedals]) ?_ ?_ ?_ detectors (by simp) (by simp) ?_ (by simp) ?_ (by simp [drive])
      · simpa [State.damperMerge, State.softMerge, pedals] using ranges.merged
      · rw [pedals]; exact ranges.rollRequests
      · rw [pedals]; exact ranges.consoleDamper
      · simpa using ranges.console
      · rw [speed]; exact ranges.speed
    · exact
        { slots := by rw [slots]; simp
          strikes := fun k => by rw [slots, key]; simp [State.cutPhase_isStrike]
          heat := fun k => by rw [key]; exact keys.heat k }
    · exact
        { struckKeys := by rw [struckKeys, session]; exact notes.struckKeys
          rollRequests := by rw [pedals, session]; exact notes.rollRequests
          pedalEntries := by rw [queue]; simp
          endEntries := by rw [queue]; simp
          silent := fun silent => ⟨queue, slots, fun k => by
            rw [session] at silent
            rw [key]
            exact ⟨s.cutPhase_isSounding k, ((notes.silent silent).2.2 k).2⟩⟩ }
    · exact
        { running := by rw [session]; exact fun h => absurd h running
          latch := by simpa [drive] using latch
          lost := fun _ => ⟨queue, slots, fun k => by rw [key]; exact s.cutPhase_isSounding k⟩
          sostenuto := by simp [pedals, drive] }
    · exact
        { capacity := by rw [queue]; simp [strikeEntries]
          strikes := by rw [queue]; simp
          pedals := by rw [queue]; simp
          oneKey := by simpa only [key] using entries.oneKey
          owners := fun o ho => by
            rw [session]
            refine entries.owners o ?_
            rcases ho with ⟨k, own⟩ | ⟨e, he, -⟩
            · rw [key] at own; exact .inl ⟨k, own⟩
            · rw [queue] at he; cases he }

end Sys2Proof.Machine

/-! PROOF. The invariant: the pedal merge, performed entries, onsets and offsets (chapters 6, 8 and 9). -/

namespace Sys2Proof.Machine

/-! ## Pedals, performed entries, onsets and offsets -/

/-- A formed merge, with console settings in range and the sostenuto actuator as R160 and R162 have it, keeps the player's half of
the invariant. -/
theorem PlayerFits.reformed {s t : State} (fits : PlayerFits s)
    (others : t = { s with pedals := t.pedals, shaping := t.shaping, console := t.console })
    (shaping : t.shaping = s.shapingFor t.pedals.mergedDamper t.pedals.mergedSoft)
    (merged : t.pedals.mergedDamper = t.damperMerge ∧ t.pedals.mergedSoft = t.softMerge)
    (requests : t.pedals.rollDamper ∈ [0, 127] ∧ t.pedals.rollSoft ∈ [0, 127])
    (playing : t.pedals.rollDamper ≠ 0 ∨ t.pedals.rollSoft ≠ 0 → s.session.state = .playing)
    (consoleDamper : t.pedals.consoleDamper ≤ 127) (console : t.console.InRange)
    (sostenuto : t.pedals.sostenuto ≠ .off ↔ t.pedals.consoleSostenuto = true ∧ s.drive.actEn = true) : PlayerFits t := by
  have ranges : Ranges t := by
    refine fits.ranges.reformed shaping merged requests consoleDamper ?_ ?_ ?_ console ?_ ?_ ?_ <;> rw [others]
    · exact fun _ h => h
    · exact fits.ranges.speed
  generalize t.pedals = p, t.shaping = sh, t.console = c at *
  subst others
  exact ⟨ranges, { fits.keys with }, { fits.notes with rollRequests := playing }, { fits.drive with sostenuto := sostenuto },
    { fits.entries with }⟩

theorem PlayerFits.setRollRequests {s : State} (fits : PlayerFits s) {damper soft : Nat} (hd : damper ∈ [0, 127])
    (hs : soft ∈ [0, 127]) (playing : s.session.state = .playing) : PlayerFits (s.setRollRequests damper soft) := by
  have pedals := s.setRollRequests_pedals damper soft
  refine fits.reformed (by apply State.eq_of_fields <;> simp) ?_ ?_ ?_ (fun _ => playing) ?_ ?_ ?_
  · rw [pedals]; exact s.setRollRequests_shaping damper soft
  · simp [State.damperMerge, State.softMerge, pedals]
  · rw [pedals]; exact ⟨hd, hs⟩
  · rw [pedals]; exact fits.ranges.consoleDamper
  · simpa using fits.ranges.console
  · rw [pedals]; exact fits.drive.sostenuto

/-- With the merge as R155 has it, the merge that a roll request leaves is formed with the new request, changed or not. -/
theorem ite_merge_eq {mode : ShadingMode} {old merged v console : Nat} (h : merged = mergePosition mode old console) :
    (if v = old then merged else mergePosition mode v console) = mergePosition mode v console := by
  split
  · rw [h, ‹v = old›]
  · rfl

theorem PlayerFits.setRollRequest {s : State} (fits : PlayerFits s) (p : Pedal) {v : Nat} (hv : v ∈ [0, 127])
    (playing : s.session.state = .playing) : PlayerFits (s.setRollRequest p v) := by
  obtain ⟨damper, soft⟩ := fits.ranges.merged
  rw [State.setRollRequest_eq]
  cases p with
  | damper =>
    refine fits.reformed rfl rfl ?_ ⟨hv, fits.ranges.rollRequests.2⟩ (fun _ => playing) fits.ranges.consoleDamper
      fits.ranges.console fits.drive.sostenuto
    exact ⟨ite_merge_eq damper, soft⟩
  | soft =>
    refine fits.reformed rfl rfl ?_ ⟨fits.ranges.rollRequests.1, hv⟩ (fun _ => playing) fits.ranges.consoleDamper
      fits.ranges.console fits.drive.sostenuto
    exact ⟨damper, ite_merge_eq soft⟩

/-- An admitted entry keeps the player's half of the invariant when it is performed (R134 to R136). -/
theorem PlayerFits.perform {s : State} (fits : PlayerFits s) {e : Entry} (he : s.Admits e) :
    PlayerFits (s.perform e.action e.seq) := by
  cases ha : e.action with
  | strike st => exact fits
  | release k t => exact fits.of_queueMoves (.performRelease s k t e.seq)
  | takeover k m => exact fits.of_queueMoves (.performTakeover s k m e.seq)
  | pedal p v => exact fits.setRollRequest p (by simpa using he.pedal p v ha) (he.playing (by simp [ha, Action.isPedal]))
  | endMark =>
    show PlayerFits s.performEnd
    unfold State.performEnd
    split
    · exact fits.enterReturning _
    · exact fits

theorem PlayerFits.performNext {s : State} (fits : PlayerFits s) (kind : Action → Bool) : PlayerFits (s.performNext kind) := by
  unfold State.performNext
  split
  · rename_i e next
    split
    · have mem : e ∈ s.queue := List.mem_of_find?_eq_some next
      have erased := QueueMoves.erase s e
      exact (fits.of_queueMoves erased).perform ((fits.admits e mem).congr erased.session erased.drive)
    · exact fits
  · exact fits

theorem PlayerFits.insertOther {s : State} (fits : PlayerFits s) (due : Time) {a : Action} (noStrike : ∀ st, a ≠ .strike st)
    (he : s.Admits ⟨due, s.nextSeq, a⟩) : PlayerFits (s.insertOther due a) := by
  rcases s.insertOther_moves due a noStrike he with moves | performed
  · exact fits.of_queueMoves moves
  · rw [performed]
    exact (fits.of_queueMoves (.takeSeq s)).perform (e := ⟨due, s.nextSeq, a⟩) (he.congr rfl rfl)

/-- In PLAYING every entry of a note track is admitted that keeps its own ranges. -/
theorem PlayerFits.admits_playing {s : State} (fits : PlayerFits s) (playing : s.session.state = .playing) (e : Entry)
    (strike : ∀ st, e.action = .strike st → 500 ≤ st.width ∧ st.width ≤ 25000 ∧ st.intensity ≤ 127)
    (pedal : ∀ p v, e.action = .pedal p v → v = 0 ∨ v = 127) (confirmed : e.action.isEnd = true → s.session.endConfirmed = true)
    (owner : ∀ o, e.owner? = some o → ∃ n, o = .note n) : s.Admits e where
  powered := fits.powered (by simp [playing])
  notSilent := by simp [SessionState.IsSilent, playing]
  strike := strike
  pedal := pedal
  playing _ := playing
  confirmed := confirmed
  owner o ho := by
    obtain ⟨n, rfl⟩ := owner o ho
    exact ⟨nofun, fun _ _ => playing⟩

theorem PlayerFits.owner_playing {s : State} (fits : PlayerFits s) (playing : s.session.state = .playing) {k : Key} {o : Owner}
    (own : (s.key k).owner = some o) : ∃ n, o = .note n := by
  cases o with
  | note n => exact ⟨n, rfl⟩
  | test => simpa [playing] using (fits.ownerFits own).1 rfl

theorem PlayerFits.pedalChange {s : State} (fits : PlayerFits s) (t : Timing) (p : Pedal) (isOpen : Bool) (change : Time) :
    PlayerFits (s.pedalChange t p isOpen change) := by
  unfold State.pedalChange
  split
  · rename_i playing
    refine fits.insertOther _ nofun (fits.admits_playing playing _ nofun ?_ nofun nofun)
    rintro _ _ ⟨⟩
    simpa using requestOf_mem isOpen
  · exact fits

theorem PlayerFits.withStruckKeys {s : State} (fits : PlayerFits s) (v : Vector (Option Key) 88)
    (playing : ∀ n : NoteTrack, v[n] ≠ none → s.session.state = .playing) : PlayerFits { s with struckKeys := v } :=
  ⟨{ fits.ranges with }, { fits.keys with }, { fits.notes with struckKeys := playing }, { fits.drive with },
    { fits.entries with }⟩

theorem PlayerFits.noteOffset {s : State} (fits : PlayerFits s) (t : Timing) (n : NoteTrack) (offset : Time) :
    PlayerFits (s.noteOffset t n offset) := by
  unfold State.noteOffset
  split
  · exact fits
  · rename_i k struck
    have playing := fits.notes.struckKeys n (by rw [struck]; nofun)
    have admitted (due : Time) : s.Admits ⟨due, s.nextSeq, .release k (.note n)⟩ :=
      fits.admits_playing playing _ nofun nofun nofun (by rintro _ ⟨⟩; exact ⟨n, rfl⟩)
    exact (fits.insertOther _ (a := .release k (.note n)) nofun (admitted _)).withStruckKeys _ fun _ _ => by simpa using playing

/-! ## Onsets -/

theorem onsetIntensity_le {s : State} (fits : PlayerFits s) (t : Timing) (c : Console) (n : NoteTrack) (k : Key) :
    s.onsetIntensity t c n k ≤ 127 := by
  have floor := (fits.ranges.keyCal k).1
  have value : s.onsetValue t c n ≤ 1023 := Nat.min_le_left _ _
  unfold State.onsetIntensity
  omega

theorem strikeWidth_between (s : State) (k : Key) (i : Nat) : 500 ≤ s.strikeWidth k i ∧ s.strikeWidth k i ≤ 25000 := by
  unfold State.strikeWidth protectedWidth
  rw [clamp_eq _ _ _ (by omega)]
  omega

/-- A takeover ahead of an onset is a move of the queue (R105). -/
theorem PlayerFits.takeOver_moves {s : State} (fits : PlayerFits s) (playing : s.session.state = .playing) (k : Key)
    (n : NoteTrack) (due : Time) (gap : Nat) : QueueMoves s (s.takeOver k n due gap) := by
  unfold State.takeOver
  split
  · exact .refl _
  · rename_i m own
    split
    · exact .refl _
    · refine s.insertTakeover_moves _ k m (fits.admits_playing playing _ nofun nofun nofun ?_)
      rintro _ ⟨⟩
      exact fits.owner_playing playing own

/-- Of the keys a note track could own, the chosen one is the only one it does own (R101, R104). -/
theorem EntriesFit.owned_is_chosen {s : State} (h : EntriesFit s) (c : Console) {n : NoteTrack} {j : Key}
    (own : (s.key j).owner = some (.note n)) : s.chosenKey c n = j := by
  unfold State.chosenKey State.ownedKey
  cases hf : allKeys.find? (fun k => (s.key k).owner == some (.note n)) with
  | none =>
    rw [List.find?_eq_none] at hf
    exact absurd (by simpa using own) (hf j (List.mem_finRange j))
  | some k => exact h.oneKey n k j (by simpa using List.find?_some hf) own

/-- A key that no other key's owner stands against is claimed for a note track in PLAYING, or for TEST in NO_ROLL and LOADED
(R103, R145). -/
theorem PlayerFits.setOwner {s : State} (fits : PlayerFits s) {k : Key} {o : Owner} (own : OwnerFits s.session.state o)
    (notSilent : ¬ s.session.state.IsSilent) (alone : ∀ n, o = .note n → ∀ j, (s.key j).owner = some (.note n) → j = k) :
    PlayerFits (s.setOwner k (some o)) := by
  have key (j : Key) : (s.setOwner k (some o)).key j =
      if j = k then { s.key k with owner := some o } else s.key j := by rw [State.setOwner, State.key_setKey]
  have phase (j : Key) : ((s.setOwner k (some o)).key j).phase = (s.key j).phase := by rw [key]; split <;> simp [*]
  refine ⟨{ fits.ranges with }, { slots := fits.keys.slots, strikes := fun j => ?_, heat := fun j => ?_ },
    { fits.notes with silent := fun silent => absurd silent notSilent },
    { fits.drive with lost := fun off => ?_ },
    { fits.entries with oneKey := fun n i j hi hj => ?_, owners := fun o' ho => ?_ }⟩
  · rw [phase]; exact fits.keys.strikes j
  · rw [key]
    split
    · exact fits.keys.heat k
    · exact fits.keys.heat j
  · simp only [phase]
    exact fits.drive.lost off
  · rw [State.owner_setOwner] at hi hj
    have only (x : Key) (hx : (if x = k then some o else (s.key x).owner) = some (.note n)) (fresh : o = .note n) : x = k := by
      by_contra hne
      rw [if_neg hne] at hx
      exact hne (alone n fresh x hx)
    by_cases fresh : o = .note n
    · rw [only i hi fresh, only j hj fresh]
    · have elsewhere (x : Key) (hx : (if x = k then some o else (s.key x).owner) = some (.note n)) :
          (s.key x).owner = some (.note n) := by
        split at hx
        · exact absurd (Option.some.inj hx) fresh
        · exact hx
      exact fits.entries.oneKey n i j (elsewhere i hi) (elsewhere j hj)
  · rcases ho with ⟨j, hj⟩ | queued
    · rw [State.owner_setOwner] at hj
      split at hj
      · rw [← Option.some.inj hj]; exact own
      · exact fits.ownerFits hj
    · exact fits.entries.owners o' (.inr queued)

theorem PlayerFits.scheduleOnset {s : State} (fits : PlayerFits s) (playing : s.session.state = .playing) (t : Timing)
    (c : Console) (n : NoteTrack) (onset : Time) : PlayerFits (s.scheduleOnset t c n onset) := by
  unfold State.scheduleOnset
  dsimp only
  have alone (j : Key) (own : (s.key j).owner = some (.note n)) : j = s.chosenKey c n :=
    (fits.entries.owned_is_chosen c own).symm
  have intensity := onsetIntensity_le fits t c n (s.chosenKey c n)
  have width := strikeWidth_between s (s.chosenKey c n) (s.onsetIntensity t c n (s.chosenKey c n))
  generalize hst : s.onsetStrike t c n (s.chosenKey c n) onset = st
  generalize strikeDue s.clock onset t.lookAhead st.flight = due
  generalize s.chosenKey c n = k at *
  have moves := fits.takeOver_moves playing k n due t.repeatGap
  have taken := fits.of_queueMoves moves
  generalize s.takeOver k n due t.repeatGap = u at *
  have playing_u : u.session.state = .playing := by rw [moves.session, playing]
  have claimed : PlayerFits (u.setOwner k (some (.note n))) := by
    refine taken.setOwner ⟨nofun, fun _ _ => playing_u⟩ (by simp [SessionState.IsSilent, playing_u]) ?_
    rintro _ ⟨⟩ j own
    rcases (moves.keys j).owner with same | none
    · exact alone j (same ▸ own)
    · rw [none] at own; cases own
  have playing_v : (u.setOwner k (some (.note n))).session.state = .playing := playing_u
  generalize u.setOwner k (some (.note n)) = v at *
  have struck : PlayerFits (v.insertStrike due st) := by
    refine claimed.of_queueMoves (v.insertStrike_moves due st (claimed.admits_playing playing_v _ ?_ nofun nofun ?_))
    · rintro _ ⟨⟩
      subst hst
      exact ⟨width.1, width.2, intensity⟩
    · rintro _ ⟨⟩
      subst hst
      exact ⟨n, rfl⟩
  exact struck.withStruckKeys _ fun _ _ => by simpa using playing_v

theorem PlayerFits.noteOnset {s : State} (fits : PlayerFits s) (t : Timing) (c : Console) (n : NoteTrack) (onset : Time) :
    PlayerFits (s.noteOnset t c n onset) := by
  unfold State.noteOnset
  split
  · exact fits.scheduleOnset ‹_› t c n onset
  · exact fits

end Sys2Proof.Machine

/-! PROOF. The blocks that onsets, offsets and pedal changes neither read nor write. -/

namespace Sys2Proof.Machine

/-! ## What stands beside the notes -/

/-- Values for the blocks that insertions into the action queue neither read nor write, and a change of each link's port. -/
structure Bystanders where
  ports : Link → LinkPort → LinkPort
  intake : Intake
  tracker : Tracker
  detectors : Vector Detector 101
  speed : Speed
  stallTimer : Option Time
  startupTimer : Option Time

/-- The changes of the ports do not touch what a raised event does. -/
def Bystanders.Neutral (b : Bystanders) : Prop := ∀ l p e, b.ports l (p.raise e) = (b.ports l p).raise e

/-- The state with other bystanders. -/
def State.beside (s : State) (b : Bystanders) : State :=
  { s with
    linkT := b.ports .T s.linkT, linkC := b.ports .C s.linkC, linkS := b.ports .S s.linkS, intake := b.intake
    tracker := b.tracker, detectors := b.detectors, speed := b.speed, stallTimer := b.stallTimer
    startupTimer := b.startupTimer }

/-- The bystanders of a state. -/
def State.bystanders (s : State) : Bystanders :=
  ⟨fun _ p => p, s.intake, s.tracker, s.detectors, s.speed, s.stallTimer, s.startupTimer⟩

theorem Bystanders.neutral_of_ports {b : Bystanders} (h : b.ports = fun _ p => p) : b.Neutral := by
  intro l p e
  rw [h]

variable {b : Bystanders}

theorem State.beside_raise (hb : b.Neutral) (s : State) (e : EventKind) : (s.beside b).raise e = (s.raise e).beside b := by
  simp only [State.beside, State.raise, hb _ _ e]

theorem State.beside_countDrop (hb : b.Neutral) (s : State) : (s.beside b).countDrop = s.countDrop.beside b :=
  State.beside_raise hb { s with strikes := { s.strikes with dropped := satAdd s.strikes.dropped 1 } } .drop

theorem State.beside_clearOwnerOf (s : State) (k : Key) (t : Owner) :
    (s.beside b).clearOwnerOf k t = (s.clearOwnerOf k t).beside b := by
  show (if (s.key k).owner = some t ∧ !s.hasStrikeOf k t then (s.beside b).setOwner k none else s.beside b) =
    (if (s.key k).owner = some t ∧ !s.hasStrikeOf k t then s.setOwner k none else s).beside b
  split <;> rfl

theorem State.beside_clearDroppedOwner (s : State) (e : Entry) :
    (s.beside b).clearDroppedOwner e = (s.clearDroppedOwner e).beside b := by
  unfold State.clearDroppedOwner
  cases e.strike? with
  | none => rfl
  | some st =>
    dsimp only
    split
    · exact s.beside_clearOwnerOf _ _
    · rfl

theorem State.beside_replaceEntry (hb : b.Neutral) (s : State) (c e : Entry) :
    (s.beside b).replaceEntry c e = (s.replaceEntry c e).beside b := by
  unfold State.replaceEntry
  rw [← State.beside_clearDroppedOwner, ← State.beside_countDrop hb]
  rfl

theorem State.beside_insertStrike (hb : b.Neutral) (s : State) (due : Time) (st : Strike) :
    (s.beside b).insertStrike due st = (s.insertStrike due st).beside b := by
  have drop : s.takeSeq.countDrop.beside b = (s.takeSeq.beside b).countDrop := (State.beside_countDrop hb _).symm
  have queue : (s.beside b).takeSeq.queue = s.takeSeq.queue := rfl
  unfold State.insertStrike
  dsimp only
  rw [queue]
  split
  · cases hc : dropCandidate s.takeSeq.queue with
    | none => exact drop.symm
    | some c =>
      dsimp only
      cases c.strike? with
      | none => exact drop.symm
      | some g =>
        dsimp only
        split
        · exact State.beside_replaceEntry hb s.takeSeq c _
        · exact drop.symm
  · rfl

theorem State.beside_performRelease (s : State) (k : Key) (t : Owner) (seq : BitVec 32) :
    (s.beside b).performRelease k t seq = (s.performRelease k t seq).beside b := by
  have key : (s.beside b).key k = s.key k := rfl
  have queue : (s.beside b).queue = s.queue := rfl
  unfold State.performRelease
  rw [key, queue]
  split
  · rfl
  · split
    · rfl
    · exact (s.releasePhase k).beside_clearOwnerOf k t

theorem State.beside_perform (s : State) (a : Action) (seq : BitVec 32) (ha : a ≠ .endMark) :
    (s.beside b).perform a seq = (s.perform a seq).beside b := by
  cases a with
  | strike st => rfl
  | release k t => exact s.beside_performRelease k t seq
  | takeover k m => rfl
  | pedal p v =>
    show (s.beside b).setRollRequest p v = (s.setRollRequest p v).beside b
    rw [State.setRollRequest_eq, State.setRollRequest_eq]
    cases p <;> rfl
  | endMark => exact absurd rfl ha

/-- Inserting an entry other than END reads and writes none of the bystanders. -/
theorem State.beside_insertOther (hb : b.Neutral) (s : State) (due : Time) {a : Action} (ha : a ≠ .endMark) :
    (s.beside b).insertOther due a = (s.insertOther due a).beside b := by
  have queue : (s.beside b).takeSeq.queue = s.takeSeq.queue := rfl
  unfold State.insertOther
  dsimp only
  rw [queue]
  split
  · cases hc : dropCandidate s.takeSeq.queue with
    | none => exact s.takeSeq.beside_perform a _ ha
    | some c => exact State.beside_replaceEntry hb s.takeSeq c _
  · rfl

theorem State.beside_pedalChange (hb : b.Neutral) (s : State) (t : Timing) (p : Pedal) (isOpen : Bool) (change : Time) :
    (s.beside b).pedalChange t p isOpen change = (s.pedalChange t p isOpen change).beside b := by
  have session : (s.beside b).session = s.session := rfl
  unfold State.pedalChange
  rw [session]
  split
  · exact State.beside_insertOther hb s _ nofun
  · rfl

theorem State.beside_noteOffset (hb : b.Neutral) (s : State) (t : Timing) (n : NoteTrack) (offset : Time) :
    (s.beside b).noteOffset t n offset = (s.noteOffset t n offset).beside b := by
  have struckKeys : (s.beside b).struckKeys = s.struckKeys := rfl
  unfold State.noteOffset
  rw [struckKeys]
  cases s.struckKeys[n] with
  | none => rfl
  | some k =>
    have h := State.beside_insertOther hb s (changeDue s.clock offset t t.releaseLead) (a := .release k (.note n)) nofun
    simp only [show (s.beside b).clock = s.clock from rfl, h]
    rfl

/-- An onset reads the detectors, for the accents, and no other bystander. -/
theorem State.beside_noteOnset (hb : b.Neutral) (s : State) (detectors : b.detectors = s.detectors) (t : Timing) (c : Console)
    (n : NoteTrack) (onset : Time) : (s.beside b).noteOnset t c n onset = (s.noteOnset t c n onset).beside b := by
  have strike (k : Key) : (s.beside b).onsetStrike t c n k onset = s.onsetStrike t c n k onset := by
    have intensity : (s.beside b).onsetIntensity t c n k = s.onsetIntensity t c n k := by
      unfold State.onsetIntensity State.onsetValue State.trackOpen
      rw [show (s.beside b).detectors = s.detectors from detectors]
      rfl
    unfold State.onsetStrike
    rw [intensity]
    rfl
  have takeOver (k : Key) (due : Time) (gap : Nat) :
      (s.beside b).takeOver k n due gap = (s.takeOver k n due gap).beside b := by
    unfold State.takeOver
    rw [show (s.beside b).key k = s.key k from rfl]
    cases (s.key k).owner with
    | none => rfl
    | some m =>
      dsimp only
      split
      · rfl
      · exact State.beside_insertOther hb s _ nofun
  have schedule : (s.beside b).scheduleOnset t c n onset = (s.scheduleOnset t c n onset).beside b := by
    unfold State.scheduleOnset
    simp only [show (s.beside b).chosenKey c n = s.chosenKey c n from rfl, show (s.beside b).clock = s.clock from rfl, strike,
      takeOver]
    generalize s.takeOver _ _ _ _ = u
    rw [show (u.beside b).setOwner (s.chosenKey c n) (some (.note n)) =
      (u.setOwner (s.chosenKey c n) (some (.note n))).beside b from rfl, State.beside_insertStrike hb]
    rfl
  unfold State.noteOnset
  rw [show (s.beside b).session = s.session from rfl]
  split
  · exact schedule
  · rfl

end Sys2Proof.Machine

/-! PROOF. The invariant: lines, measurements, the lock and decodes (chapters 1, 2 and 3). -/

namespace Sys2Proof.Machine

/-! ## Blocks outside the player's half -/

/-- Changes of the blocks that the player's half of the invariant does not speak of keep it. -/
theorem PlayerFits.of_others {s t : State} (fits : PlayerFits s)
    (others : t = { s with
      clock := t.clock, linkT := t.linkT, linkC := t.linkC, linkS := t.linkS, intake := t.intake, tracker := t.tracker
      speed := t.speed, stallTimer := t.stallTimer, startupTimer := t.startupTimer, session := t.session
      expressionDeadline := t.expressionDeadline, nextSeq := t.nextSeq, strikes := t.strikes
      frameDeadline := t.frameDeadline, thermalDeadline := t.thermalDeadline, freeCount := t.freeCount
      pending := t.pending })
    (state : t.session.state = s.session.state) (confirmed : s.session.endConfirmed = true → t.session.endConfirmed = true)
    (decode : ∀ d, t.intake.decode = some d → d.timing.InRange ∧ d.console.InRange) (speed : t.speed.InRange) :
    PlayerFits t := by
  generalize t.clock = a1, t.linkT = a2, t.linkC = a3, t.linkS = a4, t.intake = i, t.tracker = a5, t.speed = m,
    t.stallTimer = a6, t.startupTimer = a7, t.session = r, t.expressionDeadline = a8, t.nextSeq = a9, t.strikes = a10,
    t.frameDeadline = a11, t.thermalDeadline = a12, t.freeCount = a13, t.pending = a14 at *
  subst others
  have h := fits
  obtain ⟨ranges, keys, ⟨struck, requests, pedals, ends, silent⟩, ⟨running, latch, lost, sostenuto⟩,
    ⟨capacity, strikes, values, oneKey, owners⟩⟩ := h
  rw [← state] at running silent
  simp only [← state] at struck requests pedals owners
  exact ⟨{ ranges with decode := decode, speed := speed }, { keys with },
    ⟨struck, requests, pedals, fun e he h => confirmed (ends e he h), silent⟩, ⟨running, latch, lost, sostenuto⟩,
    ⟨capacity, strikes, values, oneKey, owners⟩⟩

theorem PlayerFits.setLink {s : State} (fits : PlayerFits s) (l : Link) (p : LinkPort) : PlayerFits (s.setLink l p) := by
  cases l <;> exact fits.of_others rfl rfl id fits.ranges.decode fits.ranges.speed

theorem PlayerFits.raise {s : State} (fits : PlayerFits s) (e : EventKind) : PlayerFits (s.raise e) :=
  fits.of_others rfl rfl id fits.ranges.decode fits.ranges.speed

theorem PlayerFits.withSpeed {s : State} (fits : PlayerFits s) {m : Speed} (h : m.InRange) : PlayerFits { s with speed := m } :=
  fits.of_others rfl rfl id fits.ranges.decode h

theorem PlayerFits.withIntake {s : State} (fits : PlayerFits s) (i : Intake)
    (decode : ∀ d, i.decode = some d → s.intake.decode = some d) : PlayerFits { s with intake := i } :=
  fits.of_others rfl rfl id (fun d h => fits.ranges.decode d (decode d h)) fits.ranges.speed

theorem PlayerFits.beginDecode {s : State} (fits : PlayerFits s) : PlayerFits s.beginDecode := by
  unfold State.beginDecode
  split
  · refine fits.of_others rfl rfl id ?_ fits.ranges.speed
    rintro _ ⟨⟩
    exact ⟨fits.ranges.timing, fits.ranges.console⟩
  · exact fits

/-! ## Lock, measurement, lines -/

/-- The lock's change of state: STARTING stands silent, so nothing in the queue and no owner meets PLAYING's terms badly. -/
theorem PlayerFits.enterPlaying {s : State} (fits : PlayerFits s) (starting : s.session.state = .starting) :
    PlayerFits (s.moveSession .playing) := by
  obtain ⟨queue, slots, keys⟩ := fits.notes.silent (by simp [starting])
  have powered := fits.powered (by simp [starting])
  have speed : (s.moveSession .playing).speed = s.speed := by simp [SessionState.isRunning]
  refine ⟨{ fits.ranges with speed := speed ▸ fits.ranges.speed }, { fits.keys with }, ?_,
    { fits.drive with running := fun _ => powered }, ?_⟩
  · exact ⟨fun _ _ => rfl, fun _ => rfl, fun _ _ _ => rfl, fits.notes.endEntries,
      fun silent => by simp at silent⟩
  · refine { fits.entries with owners := fun o ho => ?_ }
    rcases ho with ⟨k, own⟩ | ⟨e, he, -⟩
    · rw [show ((s.moveSession .playing).key k).owner = none from (keys k).2] at own
      cases own
    · rw [show (s.moveSession .playing).queue = [] from queue] at he
      cases he

theorem PlayerFits.restrikeTrack {s : State} (fits : PlayerFits s) (n : NoteTrack) : PlayerFits (s.restrikeTrack n) := by
  unfold State.restrikeTrack
  split
  · exact fits.noteOnset _ _ _ _
  · exact fits

theorem PlayerFits.foldlRestrike {s : State} (fits : PlayerFits s) (l : List NoteTrack) :
    PlayerFits (l.foldl State.restrikeTrack s) := by
  induction l generalizing s with
  | nil => exact fits
  | cons n l ih => exact ih (fits.restrikeTrack n)

theorem PlayerFits.startStallTimer {s : State} (fits : PlayerFits s) : PlayerFits s.startStallTimer :=
  fits.of_others rfl rfl id fits.ranges.decode fits.ranges.speed

theorem PlayerFits.lock {s : State} (fits : PlayerFits s) (starting : s.session.state = .starting) : PlayerFits s.lock :=
  (((fits.enterPlaying starting).foldlRestrike _).setRollRequests (requestOf_mem _) (requestOf_mem _)
    (by simp)).startStallTimer

theorem PlayerFits.judgeStarting {s : State} (fits : PlayerFits s) (starting : s.session.state = .starting) (good : Bool) :
    PlayerFits (s.judgeStarting good) := by
  unfold State.judgeStarting
  split
  · split
    · exact PlayerFits.lock (fits.withSpeed fits.ranges.speed) starting
    · exact fits.withSpeed fits.ranges.speed
  · exact fits.withSpeed fits.ranges.speed

theorem PlayerFits.judgePlaying {s : State} (fits : PlayerFits s) (good : Bool) : PlayerFits (s.judgePlaying good) := by
  unfold State.judgePlaying
  split
  · split
    · refine PlayerFits.raise ?_ _; exact fits.withSpeed fits.ranges.speed
    · exact fits.withSpeed fits.ranges.speed
  · split
    · exact fits
    · split
      · refine PlayerFits.raise ?_ _; exact fits.withSpeed fits.ranges.speed
      · exact fits.withSpeed fits.ranges.speed

theorem Speed.InRange.measured {m : Speed} (h : m.InRange) {q : Nat} (hq : q ≤ 65535) (tolerance : Nat) :
    (m.measured q tolerance).InRange := by
  unfold Speed.InRange Speed.measured trimOf at *
  dsimp only
  rw [clampInt_eq _ _ _ (by omega)]
  omega

theorem PlayerFits.measure {s : State} (fits : PlayerFits s) (k T : Nat) : PlayerFits (s.measure k T) := by
  unfold State.measure
  split
  · exact fits
  · have measured : PlayerFits { s with
        speed := s.speed.measured (ratio k T s.speed.targetRate) s.timing.speedTolerance } :=
      fits.withSpeed (Speed.InRange.measured fits.ranges.speed (Nat.min_le_left _ _) _)
    dsimp only
    split
    · exact measured.judgeStarting ‹_› _
    · exact measured.judgePlaying _
    all_goals exact measured

theorem PlayerFits.setAnchor {s : State} (fits : PlayerFits s) (m : Mark) : PlayerFits (s.setAnchor m) :=
  fits.withSpeed fits.ranges.speed

theorem PlayerFits.monitorLine {s : State} (fits : PlayerFits s) (m : Mark) (opened : Bool) :
    PlayerFits (s.monitorLine m opened) := by
  unfold State.monitorLine
  split
  · split
    · exact fits.setAnchor m
    · split
      · exact fits.setAnchor m
      · dsimp only
        split
        · exact fits
        · exact (fits.setAnchor m).measure _ _
  · exact fits

theorem PlayerFits.watchLine {s : State} (fits : PlayerFits s) : PlayerFits s.watchLine := by
  unfold State.watchLine
  split
  · exact fits.startStallTimer
  · exact fits.reportStallEnd _
  all_goals exact fits

theorem PlayerFits.acceptLine {s : State} (fits : PlayerFits s) (c : CarriedLine) (position : Position) (missing : Nat)
    (opened : Bool) : PlayerFits (s.acceptLine c position missing opened) :=
  (((fits.withIntake (s.intake.joined (c.stored s.clock position) missing) fun _ h => h).beginDecode).monitorLine _ _).watchLine

theorem PlayerFits.takeLine {s : State} (fits : PlayerFits s) (c : CarriedLine) : PlayerFits (s.takeLine c) := by
  unfold State.takeLine
  split
  · exact fits.withIntake _ fun _ h => h
  · exact fits.withIntake _ fun _ h => h
  · split
    · refine PlayerFits.raise ?_ _; exact fits.withIntake _ fun _ h => h
    · unfold State.checkLine
      split
      · exact fits.acceptLine _ _ _ _
      · dsimp only
        split
        · exact fits.acceptLine _ _ _ _
        · refine PlayerFits.reportStall (PlayerFits.raise ?_ _) _; exact fits.withIntake _ fun _ h => h

/-! ## Decodes -/

theorem PlayerFits.handPedal {s : State} (fits : PlayerFits s) (d : Decode) (p : Pedal) (r : Option HoleReport) :
    PlayerFits (s.handPedal d p r) := by
  unfold State.handPedal
  split
  · exact fits.pedalChange _ _ _ _
  · exact fits.pedalChange _ _ _ _
  · exact fits

theorem PlayerFits.handNote {s : State} (fits : PlayerFits s) (d : Decode) (onsets : Bool) (n : NoteTrack)
    (r : Option HoleReport) : PlayerFits (s.handNote d onsets n r) := by
  unfold State.handNote
  split
  · split
    · exact fits.noteOnset _ _ _ _
    · exact fits
  · split
    · exact fits
    · exact fits.noteOffset _ _ _
  · exact fits

theorem PlayerFits.foldlHandNote {s : State} (fits : PlayerFits s) (d : Decode) (onsets : Bool)
    (r : NoteTrack → Option HoleReport) (l : List NoteTrack) :
    PlayerFits (l.foldl (fun s n => s.handNote d onsets n (r n)) s) := by
  induction l generalizing s with
  | nil => exact fits
  | cons n l ih => exact ih (fits.handNote d onsets n (r n))

theorem State.beside_handPedal {b : Bystanders} (hb : b.Neutral) (s : State) (d : Decode) (p : Pedal) (r : Option HoleReport) :
    (s.beside b).handPedal d p r = (s.handPedal d p r).beside b := by
  unfold State.handPedal
  split
  · exact State.beside_pedalChange hb s _ _ _ _
  · exact State.beside_pedalChange hb s _ _ _ _
  · rfl

/-- A pedal change that a line reports reads and writes no detector. -/
theorem State.handPedal_withDetectors (s : State) (ds : Vector Detector 101) (d : Decode) (p : Pedal)
    (r : Option HoleReport) :
    ({ s with detectors := ds } : State).handPedal d p r = { s.handPedal d p r with detectors := ds } := by
  have h := State.beside_handPedal (b := { s.bystanders with detectors := ds }) (Bystanders.neutral_of_ports rfl) s d p r
  refine h.trans ?_
  apply State.eq_of_fields <;> simp [State.beside, State.bystanders]

/-- The step codes that the detectors `old` give are those before the line, whose change is handed on. -/
theorem State.handStepCodes_eq (s : State) (old : Vector Detector 101) :
    s.handStepCodes ({ s with detectors := old } : State).bassCode ({ s with detectors := old } : State).trebleCode =
      s.codesReported old := by
  unfold State.handStepCodes State.codesReported
  dsimp only
  by_cases hb : s.bassCode = ({ s with detectors := old } : State).bassCode
  all_goals by_cases ht : s.trebleCode = ({ s with detectors := old } : State).trebleCode
  · simp only [if_pos hb, if_pos ht]
  · simp only [if_pos hb, if_neg ht]; rfl
  · simp only [if_neg hb, if_pos ht]
    exact if_pos ht
  · simp only [if_neg hb, if_neg ht]
    exact if_neg ht

theorem Channel.InRange.withTarget {c : Channel} (h : c.InRange) {level : Nat} (hl : level ≤ 1023) :
    ({ c with target := level * 64 } : Channel).InRange :=
  ⟨h.level, ⟨by dsimp only; omega, ⟨level, by dsimp only; omega⟩⟩, h.rates⟩

/-- A line's samples, once the step codes that changed have been handed on, keep codes and targets in agreement (R34, R79). -/
theorem PlayerFits.codesReported {s : State} (fits : PlayerFits s) (new : Vector Detector 101) :
    PlayerFits (({ s with detectors := new } : State).codesReported s.detectors) := by
  refine ⟨{ fits.ranges with channels := ?_, stepCodes := ?_ }, { fits.keys with }, { fits.notes with }, { fits.drive with },
    { fits.entries with }⟩
  · have channels := fits.ranges.channels
    have table := fits.ranges.stepTable
    simp only [List.forall_mem_cons, List.not_mem_nil, false_implies, implies_true, and_true] at channels ⊢
    obtain ⟨h0, h1, h2, h3⟩ := channels
    refine ⟨?_, ?_, h2, h3⟩
    · simp only [State.codesReported]
      split
      · exact h0
      · exact h0.withTarget (table _)
    · simp only [State.codesReported]
      split
      · exact h1
      · exact h1.withTarget (table _)
  · obtain ⟨bass, treble⟩ := fits.ranges.stepCodes
    refine ⟨?_, ?_⟩
    · simp only [State.codesReported]
      split
      · rename_i same; rw [show s.shaping.bassCode = _ from bass]; exact same.symm
      · rfl
    · simp only [State.codesReported]
      split
      · rename_i same; rw [show s.shaping.trebleCode = _ from treble]; exact same.symm
      · rfl

theorem PlayerFits.sampleLine {s : State} (fits : PlayerFits s) (d : Decode) (l : Line) : PlayerFits (s.sampleLine d l) := by
  unfold State.sampleLine
  dsimp only
  refine PlayerFits.foldlHandNote (PlayerFits.foldlHandNote (PlayerFits.handPedal ?_ d .soft _) d false _ _) d true _ _
  rw [State.handPedal_withDetectors]
  have damper := fits.handPedal d .damper (holeReport s.detectors[trackDamper] (sampleAll s.detectors s.tracker.filter l)[trackDamper])
  have same : (s.handPedal d .damper
      (holeReport s.detectors[trackDamper] (sampleAll s.detectors s.tracker.filter l)[trackDamper])).detectors = s.detectors := by
    simp
  generalize s.handPedal d .damper _ = u at *
  have codes := State.handStepCodes_eq { u with detectors := sampleAll s.detectors s.tracker.filter l } s.detectors
  have bass : s.bassCode = ({ u with detectors := s.detectors } : State).bassCode := rfl
  have treble : s.trebleCode = ({ u with detectors := s.detectors } : State).trebleCode := rfl
  rw [bass, treble]
  refine (congrArg PlayerFits codes).mpr ?_
  rw [← same]
  exact damper.codesReported _

theorem PlayerFits.handTracking {s : State} (fits : PlayerFits s) (r : TrackReport) : PlayerFits (s.handTracking r) := by
  cases r with
  | loss => exact (fits.raise _).reportStall _
  | regain => exact (fits.raise _).reportStallEnd _

theorem PlayerFits.confirmEnd {s : State} (fits : PlayerFits s) (d : Decode) (stamp : Time) :
    PlayerFits (s.confirmEnd d stamp) := by
  have confirmed : PlayerFits { s with session := { s.session with endConfirmed := true } } :=
    fits.of_others rfl rfl (fun _ => rfl) fits.ranges.decode fits.ranges.speed
  unfold State.confirmEnd
  dsimp only
  split
  · rename_i playing
    exact confirmed.insertOther _ nofun (confirmed.admits_playing playing _ nofun nofun (fun _ => rfl) nofun)
  · exact confirmed.enterReturning _
  all_goals exact confirmed

theorem PlayerFits.testEnd {s : State} (fits : PlayerFits s) (d : Decode) (l : Line) : PlayerFits (s.testEnd d l) := by
  unfold State.testEnd
  split
  · exact fits.confirmEnd _ _
  · exact fits

theorem PlayerFits.applyDecode {s : State} (fits : PlayerFits s) (d : Decode) (l : Line) : PlayerFits (s.applyDecode d l) := by
  have judged : PlayerFits { s with tracker := (s.tracker.judge l).tracker } :=
    fits.of_others rfl rfl id fits.ranges.decode fits.ranges.speed
  unfold State.applyDecode
  split
  · exact fits
  · dsimp only
    split
    · split
      · exact (judged.sampleLine d l).testEnd d l
      · exact judged
    · refine PlayerFits.testEnd ?_ d l
      split
      · exact (judged.handTracking _).sampleLine d l
      · exact (judged.sampleLine d l).handTracking _

theorem PlayerFits.completeDecode {s : State} (fits : PlayerFits s) : PlayerFits s.completeDecode := by
  unfold State.completeDecode
  split
  · refine (PlayerFits.applyDecode (fits.withIntake _ ?_) _ _).beginDecode
    rintro _ ⟨⟩
  · exact fits

end Sys2Proof.Machine

/-! PROOF. The invariant: strikes, their ends and the heat of the keys (chapters 8 and 10). -/

namespace Sys2Proof.Machine

/-! ## Key actuation -/

/-- A silent session or a drive without ACT_EN has an empty queue, free slots and no key sounding. -/
theorem PlayerFits.quiet {s : State} (fits : PlayerFits s) (h : s.drive.actEn = false ∨ s.session.state.IsSilent) :
    s.queue = [] ∧ s.slots = [] ∧ ∀ k, (s.key k).phase.isSounding = false := by
  rcases h with off | silent
  · exact fits.drive.lost off
  · obtain ⟨queue, slots, keys⟩ := fits.notes.silent silent
    exact ⟨queue, slots, fun k => (keys k).1⟩

/-- Keys that start nothing where nothing may sound, claim nothing and fit the slots keep the player's half of the invariant. -/
theorem PlayerFits.actuated {s t : State} (fits : PlayerFits s)
    (others : t = { s with
      linkT := t.linkT, linkC := t.linkC, linkS := t.linkS, queue := t.queue, slots := t.slots, keys := t.keys
      strikes := t.strikes, thermalDeadline := t.thermalDeadline })
    (keys : KeysFit t) (queue : t.queue.Sublist s.queue)
    (owner : ∀ k, (t.key k).owner = (s.key k).owner ∨ (t.key k).owner = none)
    (quiet : s.drive.actEn = false ∨ s.session.state.IsSilent → t.slots = [] ∧ ∀ k, (t.key k).phase.isSounding = false) :
    PlayerFits t := by
  have kept {k : Key} {o : Owner} (own : (t.key k).owner = some o) : (s.key k).owner = some o := by
    rcases owner k with same | none
    · rw [← same, own]
    · rw [none] at own; cases own
  have mem {e : Entry} (he : e ∈ t.queue) : e ∈ s.queue := queue.subset he
  have emptied (h : s.queue = []) : t.queue = [] := List.sublist_nil.1 (h ▸ queue)
  generalize t.linkT = a1, t.linkC = a2, t.linkS = a3, t.queue = q, t.slots = a4, t.keys = a5, t.strikes = a6,
    t.thermalDeadline = a7 at others
  subst others
  refine ⟨{ fits.ranges with }, keys, ⟨fits.notes.struckKeys, fits.notes.rollRequests, fun e he => fits.notes.pedalEntries e (mem he),
    fun e he => fits.notes.endEntries e (mem he), fun silent => ?_⟩,
    ⟨fits.drive.running, fits.drive.latch, fun off => ?_, fits.drive.sostenuto⟩,
    ⟨HoldsCapacity.sublist fits.entries.capacity queue, fun e he => fits.entries.strikes e (mem he),
      fun e he => fits.entries.pedals e (mem he), fun n j k hj hk => fits.entries.oneKey n j k (kept hj) (kept hk),
      fun o ho => fits.entries.owners o ?_⟩⟩
  · obtain ⟨slots, sounding⟩ := quiet (.inr silent)
    refine ⟨emptied (fits.notes.silent silent).1, slots, fun k => ⟨sounding k, ?_⟩⟩
    rcases owner k with same | none
    · rw [same]; exact ((fits.notes.silent silent).2.2 k).2
    · exact none
  · obtain ⟨slots, sounding⟩ := quiet (.inl off)
    exact ⟨emptied (fits.drive.lost off).1, slots, sounding⟩
  · exact ho.imp (fun ⟨k, own⟩ => ⟨k, kept own⟩) fun ⟨e, he, own⟩ => ⟨e, mem he, own⟩

theorem KeyRecord.ThermalFits.withHeat {r : KeyRecord} (h : r.ThermalFits) {heat : Nat} (most : heat ≤ 65535)
    (rise : heat ≤ r.heat + 1563) : (r.withHeat heat).ThermalFits := by
  obtain ⟨-, cool, -, -⟩ := h
  unfold KeyRecord.ThermalFits KeyRecord.withHeat Thermal.evaluate
  refine ⟨most, ?_, ?_, ?_⟩
  all_goals
    dsimp only
    cases ht : r.thermal with
    | cool =>
      have := cool ht
      dsimp only
      split <;> simp <;> omega
    | warm => dsimp only; (repeat' split) <;> simp <;> omega
    | hot => dsimp only; (repeat' split) <;> simp <;> omega

theorem appliedHoldDuty_le (t : Thermal) (duty : Nat) : appliedHoldDuty t duty ≤ duty := by
  cases t <;> simp [appliedHoldDuty] <;> omega

/-- A thermal tick raises a key's heat by at most half its hold duty (R172). -/
theorem tickedHeat_le (r : KeyRecord) (duty : Nat) : tickedHeat r duty ≤ r.heat + duty / 2 := by
  have held : holdingHeat r duty ≤ duty / 2 := by
    unfold holdingHeat
    have := appliedHoldDuty_le r.thermal duty
    split <;> omega
  unfold tickedHeat
  omega

theorem KeyRecord.ThermalFits.thermalTick {r : KeyRecord} (h : r.ThermalFits) {duty : Nat} (hd : duty ≤ 1000) :
    (r.thermalTick duty).ThermalFits :=
  h.withHeat (Nat.min_le_left _ _) (by have := tickedHeat_le r duty; omega)

/-- The thermal tick's work on keys and deadline, before HEAT is raised (R172). -/
def State.cooled (s : State) : State :=
  { s with keys := Vector.ofFn fun k => (s.key k).thermalTick (s.keyCal k).holdDuty
           thermalDeadline := after s.thermalDeadline thermalPeriod }

theorem State.thermalTick_eq (s : State) : s.thermalTick = if s.heatChanges then s.cooled.raise .heat else s.cooled := by
  unfold State.thermalTick State.cooled State.mapKeys
  rfl

theorem State.key_cooled (s : State) (k : Key) : s.cooled.key k = (s.key k).thermalTick (s.keyCal k).holdDuty := by
  simp [State.cooled, State.key]

theorem PlayerFits.cooled {s : State} (fits : PlayerFits s) : PlayerFits s.cooled := by
  have heat (k : Key) : ((s.key k).thermalTick (s.keyCal k).holdDuty).ThermalFits :=
    (fits.keys.heat k).thermalTick (fits.ranges.keyCal k).2.2.1
  have key := s.key_cooled
  unfold State.cooled at key ⊢
  refine fits.actuated rfl ⟨fits.keys.slots, fun k => ?_, fun k => ?_⟩ (List.Sublist.refl _) (fun k => .inl ?_) fun h => ?_
  · rw [key]; exact fits.keys.strikes k
  · rw [key]; exact heat k
  · rw [key]; rfl
  · obtain ⟨-, slots, sounding⟩ := fits.quiet h
    exact ⟨slots, fun k => by rw [key]; exact sounding k⟩

theorem PlayerFits.thermalTick {s : State} (fits : PlayerFits s) : PlayerFits s.thermalTick := by
  rw [State.thermalTick_eq]
  split
  · exact fits.cooled.raise _
  · exact fits.cooled

theorem QueueMoves.setKey (s : State) (k : Key) {r : KeyRecord} (h : (s.key k).Eased r) : QueueMoves s (s.setKey k r) := by
  refine ⟨rfl, id, id, fun j => ?_⟩
  rw [State.key_setKey]
  split
  · rename_i same; exact same ▸ h
  · exact .refl _

/-- A strike's end frees its key's slot (R143). -/
theorem PlayerFits.endStrike {s : State} (fits : PlayerFits s) {k : Key} (striking : (s.key k).phase.isStrike = true)
    (releaseAfter : Bool) (o : Owner) : PlayerFits (s.endStrike k releaseAfter o) := by
  have sounding : (s.key k).phase.isSounding = true := by
    cases hp : (s.key k).phase <;> simp [Phase.isStrike, Phase.isSounding, hp] at striking ⊢
  have loud (h : s.drive.actEn = false ∨ s.session.state.IsSilent) : False := by
    rw [(fits.quiet h).2.2 k] at sounding; cases sounding
  have ended (p : Phase) (hp : p.isStrike = false) :
      PlayerFits (({ s with slots := s.slots.erase k } : State).setKey k { s.key k with phase := p }) := by
    have key (j : Key) := ({ s with slots := s.slots.erase k } : State).key_setKey k j { s.key k with phase := p }
    refine fits.actuated rfl ⟨⟨fits.keys.slots.1.erase _, ?_⟩, fun j => ?_, fun j => ?_⟩ (List.Sublist.refl _) (fun j => ?_)
      fun h => (loud h).elim
    · exact (List.erase_sublist.length_le).trans fits.keys.slots.2
    · show j ∈ s.slots.erase k ↔ _
      rw [fits.keys.slots.1.mem_erase_iff, key]
      split
      · simp [*]
      · rename_i other
        simp only [ne_eq, other, not_false_eq_true, true_and]
        exact fits.keys.strikes j
    · rw [key]
      split
      · exact fits.keys.heat k
      · exact fits.keys.heat j
    · rw [key]
      split
      · rename_i same; rw [same]; exact .inl rfl
      · exact .inl rfl
  unfold State.endStrike
  dsimp only
  split
  · exact (ended _ rfl).of_queueMoves (.clearOwnerOf _ k o)
  · exact ended _ rfl

theorem Entry.action_of_strike? {e : Entry} {st : Strike} (h : e.strike? = some st) : e.action = .strike st := by
  unfold Entry.strike? at h
  split at h <;> simp_all

/-- The entry the arbiter finds stands in the queue, and its key is IDLE and rested (R137). -/
theorem firstReady_found {s : State} {q ahead : List Entry} {e : Entry} {st : Strike} (h : firstReady s ahead q = some (e, st)) :
    e ∈ q ∧ e.action = .strike st ∧ (s.key st.key).isRested = true := by
  induction q generalizing ahead with
  | nil => cases h
  | cons x xs ih =>
    unfold firstReady at h
    split at h
    · split at h
      · rename_i st' hs ready
        obtain ⟨rfl, rfl⟩ : x = e ∧ st' = st := by simpa using h
        simp only [Bool.and_eq_true] at ready
        exact ⟨List.mem_cons_self, Entry.action_of_strike? hs, ready.1.2⟩
      · obtain ⟨mem, rest⟩ := ih h
        exact ⟨List.mem_cons_of_mem _ mem, rest⟩
    · obtain ⟨mem, rest⟩ := ih h
      exact ⟨List.mem_cons_of_mem _ mem, rest⟩

/-- A granted strike takes a free slot for a key that held none (R138, R141). -/
theorem PlayerFits.grant {s : State} (fits : PlayerFits s) : PlayerFits s.grant := by
  unfold State.grant State.grantable
  split
  · rename_i e st found
    split at found
    · rename_i free
      obtain ⟨mem, action, rested⟩ := firstReady_found found
      have admitted := fits.admits e mem
      obtain ⟨least, most, -⟩ := admitted.strike st action
      have idle : (s.key st.key).phase.isStrike = false := by
        unfold KeyRecord.isRested at rested
        cases hp : (s.key st.key).phase <;> simp [hp, Phase.isStrike] at rested ⊢
      have unslotted : st.key ∉ s.slots := by rw [fits.keys.strikes, idle]; simp
      have started := ({ s with queue := s.queue.erase e } : State).startStrike_unraised st
      have key := ({ s with queue := s.queue.erase e } : State).key_startStrike st
      have frame := ({ s with queue := s.queue.erase e } : State).startStrike_frame st
      generalize ({ s with queue := s.queue.erase e } : State).startStrike st = t at *
      have slots : t.slots = s.slots ++ [st.key] := congrArg State.slots started
      have heated : ((s.key st.key).startStrike st s.clock).ThermalFits :=
        (fits.keys.heat st.key).withHeat (heat := (s.key st.key).strikeHeat st.width) (Nat.min_le_left _ _)
          ((Nat.min_le_right _ _).trans (by omega))
      refine fits.actuated ?_ ⟨?_, fun k => ?_, fun k => ?_⟩ ?_ (fun k => .inl ?_) fun h => ?_
      · apply State.eq_of_fields <;> simp_all
      · rw [slots]
        refine ⟨List.nodup_append.2 ⟨fits.keys.slots.1, List.nodup_singleton _, ?_⟩, ?_⟩
        · rintro a ha b hb rfl
          rw [List.mem_singleton] at hb
          exact unslotted (hb ▸ ha)
        · simp only [slotCount] at free
          simp only [List.length_append, List.length_singleton]
          omega
      · rw [slots, key, List.mem_append, List.mem_singleton]
        split
        · rename_i same
          simp [same, KeyRecord.startStrike, Phase.isStrike]
        · rename_i other
          simp only [other, or_false]
          exact fits.keys.strikes k
      · rw [key]; split
        · exact heated
        · exact fits.keys.heat k
      · have queue : t.queue = s.queue.erase e := congrArg State.queue started
        rw [queue]
        exact List.erase_sublist
      · rw [key]; split
        · rename_i same; rw [same]; rfl
        · rfl
      · rw [(fits.quiet h).1] at mem; cases mem
    · cases found
  · exact fits

end Sys2Proof.Machine

/-! PROOF. The invariant: the roll, the console's requests and calibration records (chapters 4, 6, 7 and 9). -/

namespace Sys2Proof.Machine

/-! ## Requests -/

/-- What holds under every link port and is kept by what a request does, the request keeps (R177). -/
theorem State.request_keeps {P : State → Prop} (port : ∀ u l p, P u → P (u.setLink l p)) {s : State} (hs : P s) (h : Head)
    (permitted : Link → Bool) (length : Nat) {act : State → Taken} (acts : ∀ u, P u → P (act u).1) :
    P (s.request h permitted length act) := by
  unfold State.request
  split
  · exact port _ _ _ hs
  · have ended : P (s.endTransaction h.link (3 + h.declared.toNat) 0) := port _ _ _ hs
    dsimp only
    split
    · exact port _ _ _ ended
    · have acted := acts _ ended
      split
      · rename_i done; rw [done] at acted; exact port _ _ _ acted
      · rename_i done; rw [done] at acted; exact acted

theorem PlayerFits.request {s : State} (fits : PlayerFits s) (h : Head) (permitted : Link → Bool) (length : Nat)
    {act : State → Taken} (acts : ∀ u, PlayerFits u → PlayerFits (act u).1) :
    PlayerFits (s.request h permitted length act) :=
  State.request_keeps (fun _ _ _ fits => fits.setLink _ _) fits h permitted length acts

/-! ## The roll -/

/-- With every track closed the step codes are 0. -/
theorem State.codes_of_closed {s : State} (closed : s.detectors = detectorsClosed) : s.bassCode = 0 ∧ s.trebleCode = 0 := by
  simp [State.bassCode, State.trebleCode, State.trackOpen, closed, detectorsClosed, Detector.isOpen, stepCode]

theorem levelStep_fits {v : Nat} (h : v ≤ 1023) : levelStep v ≤ 65472 ∧ 64 ∣ levelStep v :=
  ⟨by unfold levelStep; omega, ⟨v, by unfold levelStep; omega⟩⟩

/-- The roll starts only where no note sounds: the owners and entries of LOADED are TEST's (R57, R71). -/
theorem PlayerFits.startRoll {s : State} (fits : PlayerFits s)
    (resting : s.session.state = .noRoll ∨ s.session.state = .returning) : PlayerFits (s.moveSession .loaded).startRoll := by
  have notPlaying : s.session.state ≠ .playing := by rcases resting with h | h <;> simp [h]
  have rollOff : s.pedals.rollDamper = 0 ∧ s.pedals.rollSoft = 0 := by
    by_contra on
    exact notPlaying (fits.notes.rollRequests (by omega))
  have table := (levelStep_fits (fits.ranges.stepTable 0))
  unfold State.startRoll State.clearRoll State.moveSession State.raise
  dsimp only
  refine ⟨{ fits.ranges with channels := ?_, stepCodes := ?_, speed := ?_ }, { fits.keys with }, ?_,
    { fits.drive with running := ?_ }, { fits.entries with owners := ?_ }⟩
  · have channels := fits.ranges.channels
    simp only [List.forall_mem_cons, List.not_mem_nil, false_implies, implies_true, and_true] at channels ⊢
    obtain ⟨h0, h1, h2, h3⟩ := channels
    exact ⟨⟨table.1, table, h0.rates⟩, ⟨table.1, table, h1.rates⟩, h2, h3⟩
  · exact ⟨(State.codes_of_closed rfl).1.symm, (State.codes_of_closed rfl).2.symm⟩
  · have idle : ∀ {m : Speed}, m.InRange → m.idle.InRange := Speed.InRange.inactive
    refine idle ?_
    split
    · exact idle fits.ranges.speed
    · exact fits.ranges.speed
  · exact
      { struckKeys := fun n hn => absurd (by simp) hn
        rollRequests := fun on => by rw [rollOff.1, rollOff.2] at on; simp at on
        pedalEntries := fun e he h => absurd (fits.notes.pedalEntries e he h) notPlaying
        endEntries := fun e he h => absurd (fits.notes.pedalEntries e he (.inr h)) notPlaying
        silent := by simp }
  · simp
  · intro o ho
    have owns := fits.entries.owners o ho
    exact ⟨fun _ => .inr rfl, fun n hn => absurd (owns.2 n hn) notPlaying⟩

theorem PlayerFits.loadRoll {s : State} (fits : PlayerFits s) (noRoll : s.session.state = .noRoll) (rate : Nat) :
    PlayerFits (s.loadRoll rate) := by
  have started := fits.startRoll (.inl noRoll)
  refine started.withSpeed ?_
  obtain ⟨-, -, rest⟩ := started.ranges.speed
  have rate := clamp_eq 100 1500 rate (by omega)
  exact ⟨by dsimp only; omega, by dsimp only; omega, rest⟩

/-- The silence notice of ROLL_REMOVED (R72). -/
theorem PlayerFits.silencedNoRoll {s : State} (fits : PlayerFits s) :
    PlayerFits ((s.moveSession .noRoll).setLastCause none).silence := by
  have silences : Silences s ((s.moveSession .noRoll).setLastCause none).silence :=
    (State.silence_silences _).of_same (by simp) (by simp) (by simp) (by simp) (by simp) (by simp) (by simp) (by simp)
  have stops : StopsRunning s ((s.moveSession .noRoll).setLastCause none).silence :=
    (s.moveSession_stops (d := .noRoll) rfl).keep (by simp) (by simp) (by simp)
  exact fits.quieted_driven ⟨silences, by simp, by simp, by simp, by simp, by simp, stops.speed_inRange, by simp⟩ (by simp)
    (by simp)

theorem PlayerFits.removeRoll {s : State} (fits : PlayerFits s) : PlayerFits s.removeRoll := by
  have silenced := fits.silencedNoRoll
  have state : ((s.moveSession .noRoll).setLastCause none).silence.session.state = .noRoll := by simp
  have struck : ∀ n : NoteTrack, ((s.moveSession .noRoll).setLastCause none).silence.struckKeys[n] = none :=
    (State.silence_silences _).struckKeys
  have queue : ((s.moveSession .noRoll).setLastCause none).silence.queue = [] := (State.silence_silences _).queue
  have speed : ((s.moveSession .noRoll).setLastCause none).silence.speed.idle.InRange :=
    Speed.InRange.inactive silenced.ranges.speed
  unfold State.removeRoll State.clearRoll
  generalize ((s.moveSession .noRoll).setLastCause none).silence = u at *
  dsimp only
  refine ⟨{ silenced.ranges with channels := ?_, stepCodes := ?_, decode := nofun, speed := speed }, { silenced.keys with },
    { silenced.notes with endEntries := ?_ }, { silenced.drive with }, { silenced.entries with }⟩
  · have channels := silenced.ranges.channels
    simp only [List.forall_mem_cons, List.not_mem_nil, false_implies, implies_true, and_true] at channels ⊢
    exact channels
  · exact ⟨(State.codes_of_closed rfl).1.symm, (State.codes_of_closed rfl).2.symm⟩
  · intro e he
    rw [show u.queue = [] from queue] at he
    cases he

theorem PlayerFits.restartIntake {s : State} (fits : PlayerFits s) : PlayerFits s.restartIntake := by
  unfold State.restartIntake
  split
  · exact fits
  all_goals
    refine PlayerFits.reportStallEnd ?_ _
    exact fits.withIntake _ nofun

/-! ## Console and service requests -/

theorem actEn_of_playRefusal {s : State} (passes : s.playRefusal = none) : s.drive.actEn = true := by
  unfold State.playRefusal at passes
  by_contra off
  rw [Bool.not_eq_true] at off
  simp only [off] at passes
  split at passes <;> cases passes

theorem PlayerFits.setTempo {s : State} (fits : PlayerFits s) {factor : Nat} (hf : 128 ≤ factor ∧ factor ≤ 512) :
    PlayerFits (s.setTempo factor) := by
  obtain ⟨h1, h2, -, -, h3⟩ := fits.ranges.speed
  unfold State.setTempo
  split
  · exact fits
  · refine fits.withSpeed ?_
    unfold Speed.tempoChanged
    split <;> exact ⟨h1, h2, hf.1, hf.2, h3⟩

theorem PlayerFits.withConsole {s : State} (fits : PlayerFits s) {c : Console} (mode : c.mode = s.console.mode)
    (h : c.InRange) : PlayerFits { s with console := c } := by
  have merged := fits.ranges.merged
  rw [State.damperMerge, State.softMerge, ← mode] at merged
  exact ⟨{ fits.ranges with console := h, merged := merged }, { fits.keys with }, { fits.notes with }, { fits.drive with },
    { fits.entries with }⟩

theorem PlayerFits.setShading {s : State} (fits : PlayerFits s) (mode : ShadingMode) (weight gain : Nat) :
    PlayerFits (s.setShading mode weight gain) := by
  have console : ({ s.console with
      mode := mode, blendWeight := clamp 0 256 weight, masterGain := clamp 0 384 gain } : Console).InRange := by
    have hw := clamp_eq 0 256 weight (by omega)
    have hg := clamp_eq 0 384 gain (by omega)
    exact { fits.ranges.console with blendWeight := by dsimp only; omega, masterGain := by dsimp only; omega }
  unfold State.setShading
  generalize hc : ({ s.console with
      mode := mode, blendWeight := clamp 0 256 weight, masterGain := clamp 0 384 gain } : Console) = c at *
  dsimp only
  split
  · have pedals := ({ s with console := c } : State).reformMerge_pedals
    refine fits.reformed (by apply State.eq_of_fields <;> simp) ?_ ?_ ?_ ?_ ?_ ?_ ?_
    · rw [pedals]; exact ({ s with console := c } : State).reformMerge_shaping
    · simp [State.damperMerge, State.softMerge, pedals]
    · rw [pedals]; exact fits.ranges.rollRequests
    · rw [pedals]; exact fits.notes.rollRequests
    · rw [pedals]; exact fits.ranges.consoleDamper
    · simpa using console
    · rw [pedals]; exact fits.drive.sostenuto
  · rename_i same
    refine fits.withConsole ?_ console
    rw [← hc]
    exact not_not.1 same

/-- The sostenuto's rules of R160: it stands off unless the console holds it on under ACT_EN. -/
theorem PlayerFits.setConsolePedals {s : State} (fits : PlayerFits s) (damper : Nat) (soft sostenuto : Bool) :
    PlayerFits (s.setConsolePedals damper soft sostenuto) := by
  obtain ⟨pedals, shaping⟩ := s.setConsolePedals_spec damper soft sostenuto
  have range := clamp_eq 0 127 damper (by omega)
  have held := fits.drive.sostenuto
  refine fits.reformed (by apply State.eq_of_fields <;> simp) ?_ ?_ ?_ ?_ ?_ ?_ ?_
  · rw [pedals]; exact shaping
  · simp [State.damperMerge, State.softMerge, pedals]
  · rw [pedals]; exact fits.ranges.rollRequests
  · rw [pedals]; exact fits.notes.rollRequests
  · rw [pedals]; dsimp only; omega
  · simpa using fits.ranges.console
  · rw [pedals]
    dsimp only
    split
    · rename_i same; rw [same]; exact held
    · cases sostenuto <;> cases hd : s.drive.actEn <;> simp_all

theorem PlayerFits.writeKeyCal {s : State} (fits : PlayerFits s) (k : Key) (f : KeyCalFields) :
    PlayerFits (s.writeKeyCal k (storedKeyCal f)) := by
  have stored : ∀ j, ((s.writeKeyCal k (storedKeyCal f)).keyCal j) = if j = k then storedKeyCal f else s.keyCal j :=
    fun j => s.keyCal_writeKeyCal k j _
  refine ⟨{ fits.ranges with keyCal := fun j => ?_ }, { fits.keys with }, { fits.notes with }, { fits.drive with },
    { fits.entries with }⟩
  rw [stored]
  split
  · simp only [storedKeyCal]
    rw [clamp_eq _ _ _ (by omega), clamp_eq _ _ _ (by omega), clamp_eq _ _ _ (by omega)]
    refine ⟨by omega, fun i => ?_, by omega, by omega, by omega⟩
    simp only [Fin.getElem_fin, Vector.getElem_ofFn]
    omega
  · exact fits.ranges.keyCal j

end Sys2Proof.Machine

/-! PROOF. The invariant: shaping settings, curves, timing, the drive and test strikes (chapters 5, 7, 9 and 10). -/

namespace Sys2Proof.Machine

/-! ## Shaping settings, curves and timing -/

theorem PlayerFits.writeStepTable {s : State} (fits : PlayerFits s) (levels : Vector (BitVec 16) 8) :
    PlayerFits { s with shaping :=
      ({ s.shaping with stepTable := Vector.ofFn fun j => clamp 0 1023 (levels[j]).toNat } : Shaping).formTargets } := by
  have stored (j : Fin 8) : (Vector.ofFn fun j : Fin 8 => clamp 0 1023 (levels[j]).toNat)[j] ≤ 1023 := by
    have := clamp_eq 0 1023 (levels[j]).toNat (by omega)
    simp only [Fin.getElem_fin, Vector.getElem_ofFn] at this ⊢
    omega
  refine ⟨{ fits.ranges with channels := ?_, stepTable := stored }, { fits.keys with }, { fits.notes with },
    { fits.drive with }, { fits.entries with }⟩
  have channels := fits.ranges.channels
  simp only [List.forall_mem_cons, List.not_mem_nil, false_implies, implies_true, and_true] at channels ⊢
  obtain ⟨h0, h1, h2, h3⟩ := channels
  exact ⟨h0.withTarget (stored _), h1.withTarget (stored _), h2, h3⟩

theorem PlayerFits.setRates {s : State} (fits : PlayerFits s) (c : Fin 4) (rateA rateB : Nat) :
    PlayerFits { s with shaping := s.shaping.setRates c (clamp 1 256 rateA) (clamp 1 256 rateB) } := by
  have ha := clamp_eq 1 256 rateA (by omega)
  have hb := clamp_eq 1 256 rateB (by omega)
  generalize clamp 1 256 rateA = a, clamp 1 256 rateB = b at *
  have rated {ch : Channel} (h : ch.InRange) : (ch.setRates a b).InRange :=
    ⟨h.level, h.target, by simp only [Channel.setRates]; omega⟩
  have channels := fits.ranges.channels
  simp only [List.forall_mem_cons, List.not_mem_nil, false_implies, implies_true, and_true] at channels
  obtain ⟨h0, h1, h2, h3⟩ := channels
  have kept (sh : Shaping) (levels : ∀ ch ∈ [Shaping.ch0, Shaping.ch1, Shaping.ch2, Shaping.ch3], (ch sh).InRange)
      (table : sh.stepTable = s.shaping.stepTable) (codes : sh.bassCode = s.shaping.bassCode ∧ sh.trebleCode = s.shaping.trebleCode)
      (targets : sh.ch2.target = s.shaping.ch2.target ∧ sh.ch3.target = s.shaping.ch3.target) :
      PlayerFits { s with shaping := sh } := by
    refine ⟨{ fits.ranges with channels := levels, stepTable := ?_, stepCodes := ?_, pedalTargets := ?_ }, { fits.keys with },
      { fits.notes with }, { fits.drive with }, { fits.entries with }⟩
    · rw [table]; exact fits.ranges.stepTable
    · rw [codes.1, codes.2]; exact fits.ranges.stepCodes
    · rw [targets.1, targets.2]; exact fits.ranges.pedalTargets
  match c with
  | 0 => exact kept _ (by simpa [Shaping.setRates] using ⟨rated h0, h1, h2, h3⟩) rfl ⟨rfl, rfl⟩ ⟨rfl, rfl⟩
  | 1 => exact kept _ (by simpa [Shaping.setRates] using ⟨h0, rated h1, h2, h3⟩) rfl ⟨rfl, rfl⟩ ⟨rfl, rfl⟩
  | 2 => exact kept _ (by simpa [Shaping.setRates] using ⟨h0, h1, rated h2, h3⟩) rfl ⟨rfl, rfl⟩ ⟨rfl, rfl⟩
  | 3 => exact kept _ (by simpa [Shaping.setRates] using ⟨h0, h1, h2, rated h3⟩) rfl ⟨rfl, rfl⟩ ⟨rfl, rfl⟩

theorem curveValues_le (values : Vector (BitVec 16) 5) (j : Fin 5) : (curveValues values)[j] ≤ 1000 := by
  have := clamp_eq 0 1000 (values[j]).toNat (by omega)
  simp only [curveValues, Fin.getElem_fin, Vector.getElem_ofFn] at this ⊢
  omega

theorem PlayerFits.writeCurve {s : State} (fits : PlayerFits s) (selector : BitVec 8) (values : Vector (BitVec 16) 5) :
    PlayerFits (s.writeCurve selector values).1 := by
  have stored := curveValues_le values
  unfold State.writeCurve
  split
  · exact ⟨{ fits.ranges with curves := fun j => ⟨stored j, (fits.ranges.curves j).2⟩ }, { fits.keys with }, { fits.notes with },
      { fits.drive with }, { fits.entries with }⟩
  · split
    · exact ⟨{ fits.ranges with curves := fun j => ⟨(fits.ranges.curves j).1, stored j⟩ }, { fits.keys with },
        { fits.notes with }, { fits.drive with }, { fits.entries with }⟩
    · split
      · exact ⟨{ fits.ranges with sostenutoHold := stored 0 }, { fits.keys with }, { fits.notes with }, { fits.drive with },
          { fits.entries with }⟩
      · exact fits

theorem clamp_between {lo hi : Nat} (h : lo ≤ hi) (x : Nat) : lo ≤ clamp lo hi x ∧ clamp lo hi x ≤ hi := by
  rw [clamp_eq lo hi x h]
  omega

theorem clamp_zero_le (hi x : Nat) : clamp 0 hi x ≤ hi := (clamp_between (Nat.zero_le hi) x).2

theorem storedTiming_inRange (f : TimingFields) : (storedTiming f).InRange where
  lookAhead := clamp_between (by omega) _
  leads := ⟨clamp_zero_le _ _, clamp_zero_le _ _⟩
  split := clamp_between (by omega) _
  accentBoost := clamp_zero_le _ _
  repeatGap := clamp_between (by omega) _
  stallTimeout := clamp_between (by omega) _
  speedTolerance := clamp_between (by omega) _
  expressionTick := clamp_between (by omega) _

theorem PlayerFits.withTiming {s : State} (fits : PlayerFits s) {t : Timing} (h : t.InRange) : PlayerFits { s with timing := t } :=
  ⟨{ fits.ranges with timing := h }, { fits.keys with }, { fits.notes with }, { fits.drive with }, { fits.entries with }⟩

/-! ## The drive -/

/-- ACT_EN asserted with nothing driven, no fault input and the sostenuto pulled in when the console holds it on (R162, R167). -/
theorem PlayerFits.enableDrive {s : State} (fits : PlayerFits s) (off : s.drive.actEn = false)
    (noFault : s.drive.faultInput = false) : PlayerFits s.enableDrive := by
  unfold State.enableDrive
  dsimp only
  split
  · rename_i held
    refine ⟨{ fits.ranges with }, { fits.keys with }, { fits.notes with },
      { running := fun _ => rfl, latch := ⟨fun h => ?_, fun _ => rfl⟩, lost := nofun, sostenuto := ?_ }, { fits.entries with }⟩
    · rw [show s.drive.faultInput = true from h] at noFault; cases noFault
    · exact ⟨fun _ => ⟨held, rfl⟩, fun _ => nofun⟩
  · rename_i free
    refine ⟨{ fits.ranges with }, { fits.keys with }, { fits.notes with },
      { running := fun _ => rfl, latch := ⟨fun h => ?_, fun _ => rfl⟩, lost := nofun, sostenuto := ?_ }, { fits.entries with }⟩
    · rw [show s.drive.faultInput = true from h] at noFault; cases noFault
    · have rests := fits.drive.sostenuto
      rw [off] at rests
      exact ⟨fun on => absurd (rests.1 on).2 nofun, fun on => absurd on.1 free⟩

theorem PlayerFits.driveRequest {s : State} (fits : PlayerFits s) (value : BitVec 8) : PlayerFits (s.driveRequest value).1 := by
  unfold State.driveRequest
  split
  · exact .driveLoss fits.ranges fits.keys fits.notes fits.entries fits.drive.latch.1 _
  · split
    · split
      · exact fits
      · show PlayerFits (if s.drive.actEn then s else s.enableDrive)
        split
        · exact fits
        · exact fits.enableDrive (by simp_all) (by simp_all)
    · exact fits

/-- The effects of a fault edge need of the drive's part of the invariant only what it left of the latch (R168). -/
theorem PlayerFits.faultEffects {s : State} (ranges : Ranges s) (keys : KeysFit s) (notes : NotesFit s) (entries : EntriesFit s) :
    PlayerFits s.faultEffects := by
  unfold State.faultEffects State.raise
  dsimp only
  refine PlayerFits.driveLoss ?_ ?_ ?_ ?_ (fun _ => rfl) _
  · exact { ranges with }
  · exact { keys with }
  · exact { notes with }
  · exact { entries with }

theorem PlayerFits.faultEdge {s : State} (fits : PlayerFits s) :
    PlayerFits ({ s with drive := { s.drive with faultInput := true } } : State).faultEffects :=
  .faultEffects { fits.ranges with } { fits.keys with } { fits.notes with } { fits.entries with }

theorem PlayerFits.faultInputRelease {s : State} (fits : PlayerFits s) :
    PlayerFits { s with drive := { s.drive with faultInput := false } } :=
  ⟨{ fits.ranges with }, { fits.keys with }, { fits.notes with },
    { fits.drive with latch := ⟨nofun, fits.drive.latch.2⟩ }, { fits.entries with }⟩

/-! ## Test strikes -/

theorem PlayerFits.testStrike {s : State} (fits : PlayerFits s) (idle : s.session.state = .noRoll ∨ s.session.state = .loaded)
    (powered : s.drive.actEn = true) (k : Key) (intensity holdMs : Nat) : PlayerFits (s.testStrike k intensity holdMs) := by
  have loud : ¬ s.session.state.IsSilent := by rcases idle with h | h <;> simp [SessionState.IsSilent, h]
  have notPlaying : s.session.state ≠ .playing := by rcases idle with h | h <;> simp [h]
  have admits {u : State} (session : u.session = s.session) (drive : u.drive = s.drive) (e : Entry)
      (strike : ∀ st, e.action = .strike st → 500 ≤ st.width ∧ st.width ≤ 25000 ∧ st.intensity ≤ 127)
      (pedal : e.action.isPedal = false ∧ e.action.isEnd = false) (owner : ∀ o, e.owner? = some o → o = .test) : u.Admits e := by
    refine State.Admits.congr (s := s) ?_ session drive
    refine ⟨powered, loud, strike, fun p v h => ?_, fun h => ?_, fun h => ?_, fun o ho => ?_⟩
    · rw [h] at pedal; simp [Action.isPedal] at pedal
    · simp [pedal] at h
    · simp [pedal] at h
    · rw [owner o ho]; exact ⟨fun _ => idle, nofun⟩
  have moves : QueueMoves s (s.testTakeover k) := by
    unfold State.testTakeover
    split
    · exact .refl s
    · exact s.insertPerformed_moves k _
  unfold State.testStrike
  dsimp only
  have width := strikeWidth_between s k (clamp 0 127 intensity)
  have range := clamp_eq 0 127 intensity (by omega)
  have hw : (s.testStrikeOf k (clamp 0 127 intensity)).width = s.strikeWidth k (clamp 0 127 intensity) := rfl
  have hi : (s.testStrikeOf k (clamp 0 127 intensity)).intensity = clamp 0 127 intensity := rfl
  have ho : (s.testStrikeOf k (clamp 0 127 intensity)).owner = .test := rfl
  generalize s.testStrikeOf k (clamp 0 127 intensity) = st at *
  have taken := fits.of_queueMoves moves
  have session := moves.session
  have drive := moves.drive
  generalize s.testTakeover k = u at *
  have claimed : PlayerFits (u.setOwner k (some .test)) :=
    taken.setOwner ⟨fun _ => session ▸ idle, nofun⟩ (session ▸ loud) nofun
  have session' : (u.setOwner k (some .test)).session = s.session := session
  have drive' : (u.setOwner k (some .test)).drive = s.drive := drive
  generalize u.setOwner k (some .test) = v at *
  have struck : QueueMoves v (v.insertStrike s.clock st) := by
    refine v.insertStrike_moves _ st (admits session' drive' _ ?_ ⟨rfl, rfl⟩ ?_)
    · rintro _ ⟨⟩; omega
    · rintro _ ⟨⟩; exact ho
  refine (claimed.of_queueMoves struck).insertOther _ nofun (admits ?_ ?_ _ nofun ⟨rfl, rfl⟩ ?_)
  · rw [struck.session, session']
  · rw [struck.drive, drive']
  · rintro _ ⟨⟩; rfl

end Sys2Proof.Machine

/-! PROOF. The invariant: resets, ticks, frames and ends of phases (chapters 5, 8, 10 and 11). -/

namespace Sys2Proof.Machine

/-! ## Resets -/

theorem PlayerFits.faultAtReset {s : State} (ranges : Ranges s) (keys : KeysFit s) (notes : NotesFit s) (entries : EntriesFit s)
    (drive : s.drive.faultInput = false → DriveFits s) : PlayerFits s.faultAtReset := by
  unfold State.faultAtReset
  split
  · exact .faultEffects ranges keys notes entries
  · rename_i inactive
    exact ⟨ranges, keys, notes, drive (by simpa using inactive), entries⟩

/-- After a reset nothing is queued, driven, owned or struck, and every block that a reset clears is at its initial value; what it
keeps must be in range. -/
theorem PlayerFits.restarted {t : State} (queue : t.queue = []) (slots : t.slots = [])
    (key : ∀ k, t.key k = KeyRecord.atReset t.clock) (struckKeys : t.struckKeys = Vector.replicate 88 none)
    (session : t.session = Session.initial) (intake : t.intake = Intake.initial) (detectors : t.detectors = detectorsClosed)
    (speed : t.speed = Speed.initial) (console : t.console = Console.initial) (pedals : t.pedals = Pedals.initial)
    (drive : t.drive.actEn = false ∧ t.drive.faultLatch = false) (duties : ∀ i : Fin 91, t.drive.duties[i] ≤ 1000)
    (channels : ∀ ch ∈ [Shaping.ch0, Shaping.ch1, Shaping.ch2, Shaping.ch3], (ch t.shaping).InRange)
    (targets : t.shaping.ch2.target = 0 ∧ t.shaping.ch3.target = 0) (stepTable : ∀ j : Fin 8, t.shaping.stepTable[j] ≤ 1023)
    (codes : t.shaping.bassCode = 0 ∧ t.shaping.trebleCode = 0)
    (keyCal : ∀ k, (t.keyCal k).touchFloor ≤ 127 ∧ (∀ j : Fin 9, (t.keyCal k).width[j] ≤ 65535) ∧
      (t.keyCal k).holdDuty ≤ 1000 ∧ 5000 ≤ (t.keyCal k).settle ∧ (t.keyCal k).settle ≤ 100000)
    (curves : ∀ j : Fin 5, t.calibration.damperCurve[j] ≤ 1000 ∧ t.calibration.softCurve[j] ≤ 1000)
    (sostenutoHold : t.calibration.sostenutoHold ≤ 1000) (timing : t.timing.InRange) : PlayerFits t.faultAtReset := by
  have idle (k : Key) : (t.key k).phase.isSounding = false ∧ (t.key k).owner = none ∧ (t.key k).phase.isStrike = false ∧
      (t.key k).ThermalFits := by
    rw [key]; exact ⟨rfl, rfl, rfl, by simp [KeyRecord.ThermalFits, KeyRecord.atReset]⟩
  refine .faultAtReset ?_ ⟨?_, ?_, fun k => (idle k).2.2.2⟩ ⟨?_, ?_, ?_, ?_, ?_⟩ ⟨?_, ?_, ?_, ?_, ?_⟩ fun inactive =>
    ⟨?_, ?_, ?_, ?_⟩
  · exact
      { channels := channels
        stepTable := stepTable
        stepCodes := by
          obtain ⟨bass, treble⟩ := State.codes_of_closed detectors
          rw [bass, treble]; exact codes
        rollRequests := by simp [pedals, Pedals.initial]
        consoleDamper := by simp [pedals, Pedals.initial]
        merged := by
          simp [State.damperMerge, State.softMerge, pedals, console, Pedals.initial, Console.initial, mergePosition]
        pedalTargets := by rw [targets.1, targets.2]; simp [pedals, Pedals.initial]
        keyCal := keyCal
        curves := curves
        sostenutoHold := sostenutoHold
        timing := timing
        console := by
          rw [console]
          constructor <;> simp [Console.initial]
        decode := by rw [intake]; nofun
        speed := by rw [speed]; decide
        duties := duties }
  · rw [slots]; simp
  · intro k; rw [slots, (idle k).2.2.1]; simp
  · intro n hn; rw [struckKeys] at hn; exact absurd (by simp) hn
  · rw [pedals]; simp [Pedals.initial]
  · rw [queue]; simp
  · rw [queue]; simp
  · exact fun _ => ⟨queue, slots, fun k => ⟨(idle k).1, (idle k).2.1⟩⟩
  · rw [queue]; simp [strikeEntries]
  · rw [queue]; simp
  · rw [queue]; simp
  · intro n j k hj
    rw [(idle j).2.1] at hj; cases hj
  · intro o ho
    rcases ho with ⟨k, own⟩ | ⟨e, he, -⟩
    · rw [(idle k).2.1] at own; cases own
    · rw [queue] at he; cases he
  · rw [session]; simp [Session.initial]
  · rw [inactive, drive.1]; exact ⟨nofun, nofun⟩
  · exact fun _ => ⟨queue, slots, fun k => (idle k).1⟩
  · rw [pedals, drive.1]; simp [Pedals.initial]

theorem State.key_replicate {s : State} {r : KeyRecord} (h : s.keys = Vector.replicate 88 r) (k : Key) : s.key k = r := by
  simp [State.key, h]

theorem Channel.InRange.zeroed {c : Channel} (h : c.InRange) : ({ c with level := 0, target := 0 } : Channel).InRange :=
  ⟨by simp, by simp, h.rates⟩

theorem PlayerFits.coreReset {s : State} (fits : PlayerFits s) : PlayerFits s.coreReset := by
  have channels := fits.ranges.channels
  refine .restarted rfl rfl (State.key_replicate rfl) rfl rfl rfl rfl rfl rfl rfl ⟨rfl, rfl⟩ fits.ranges.duties ?_ ⟨rfl, rfl⟩
    fits.ranges.stepTable ⟨rfl, rfl⟩ fits.ranges.keyCal fits.ranges.curves fits.ranges.sostenutoHold fits.ranges.timing
  simp only [List.forall_mem_cons, List.not_mem_nil, false_implies, implies_true, and_true] at channels ⊢
  obtain ⟨h0, h1, h2, h3⟩ := channels
  exact ⟨h0.zeroed, h1.zeroed, h2.zeroed, h3.zeroed⟩

theorem KeyCal.default_inRange : KeyCal.default.touchFloor ≤ 127 ∧ (∀ j : Fin 9, KeyCal.default.width[j] ≤ 65535) ∧
    KeyCal.default.holdDuty ≤ 1000 ∧ 5000 ≤ KeyCal.default.settle ∧ KeyCal.default.settle ≤ 100000 := by
  decide

theorem PlayerFits.pinReset (s : State) : PlayerFits s.pinReset := by
  refine .restarted rfl rfl (State.key_replicate rfl) rfl rfl rfl rfl rfl rfl rfl ⟨rfl, rfl⟩ ?_ ?_ ⟨rfl, rfl⟩ ?_ ⟨rfl, rfl⟩ ?_ ?_ ?_ ?_
  · intro i
    simp [Drive.initial]
  · simp only [List.forall_mem_cons, List.not_mem_nil, false_implies, implies_true, and_true]
    refine ⟨?_, ?_, ?_, ?_⟩ <;> constructor <;> simp [State.reset, Shaping.initial]
  · show ∀ j : Fin 8, defaultStepTable[j] ≤ 1023
    decide
  · intro k
    have default : State.keyCal { State.reset with
        linkT := s.linkT.pinReset, linkC := s.linkC.pinReset, linkS := s.linkS.pinReset
        drive := { Drive.initial with faultInput := s.drive.faultInput }, freeCount := s.freeCount
        pending := s.pending } k = KeyCal.default := by
      simp [State.keyCal, State.reset, Calibration.initial]
    rw [default]
    exact KeyCal.default_inRange
  · show ∀ j : Fin 5, Calibration.initial.damperCurve[j] ≤ 1000 ∧ Calibration.initial.softCurve[j] ≤ 1000
    decide
  · show Calibration.initial.sostenutoHold ≤ 1000
    decide
  · constructor <;> simp [State.reset, Timing.initial]

/-! ## Ticks, frames and the ends of phases -/

/-- A channel's step keeps its record in range: the level stays between level and target (R85). -/
theorem Channel.InRange.moved {c d : Channel} (h : c.InRange) (between : c.Brackets d.level) (target : d.target = c.target)
    (rates : d.rateA = c.rateA ∧ d.rateB = c.rateB) : d.InRange := by
  obtain ⟨level, ⟨most, whole⟩, rated⟩ := h
  refine ⟨?_, ?_, ?_⟩
  · unfold Channel.Brackets at between; omega
  · rw [target]; exact ⟨most, whole⟩
  · rw [rates.1, rates.2]; exact rated

/-- A tick moves levels alone. -/
theorem Shaping.tick_settings (sh : Shaping) (playing bassGlide trebleGlide : Bool) :
    (sh.tick playing bassGlide trebleGlide).stepTable = sh.stepTable ∧
    (sh.tick playing bassGlide trebleGlide).bassCode = sh.bassCode ∧
    (sh.tick playing bassGlide trebleGlide).trebleCode = sh.trebleCode ∧
    ∀ ch ∈ [Shaping.ch0, Shaping.ch1, Shaping.ch2, Shaping.ch3],
      (ch (sh.tick playing bassGlide trebleGlide)).target = (ch sh).target ∧
      (ch (sh.tick playing bassGlide trebleGlide)).rateA = (ch sh).rateA ∧
      (ch (sh.tick playing bassGlide trebleGlide)).rateB = (ch sh).rateB := by
  refine ⟨rfl, rfl, rfl, ?_⟩
  simp only [List.forall_mem_cons, List.not_mem_nil, false_implies, implies_true, and_true]
  cases playing <;> exact ⟨⟨rfl, rfl, rfl⟩, ⟨rfl, rfl, rfl⟩, ⟨rfl, rfl, rfl⟩, rfl, rfl, rfl⟩

theorem PlayerFits.expressionTick {s : State} (fits : PlayerFits s) : PlayerFits s.expressionTick := by
  unfold State.expressionTick
  generalize (s.session.state == SessionState.playing) = playing, s.trackOpen trackBassGlide = bass, s.trackOpen trackTrebleGlide = treble
  have brackets := fun {ch} hch => s.shaping.tick_brackets playing bass treble (ch := ch) hch
  obtain ⟨table, bassCode, trebleCode, kept⟩ := s.shaping.tick_settings playing bass treble
  generalize s.shaping.tick playing bass treble = sh at *
  refine ⟨{ fits.ranges with channels := fun ch hch => ?_, stepTable := ?_, stepCodes := ?_, pedalTargets := ?_ },
    { fits.keys with }, { fits.notes with }, { fits.drive with }, { fits.entries with }⟩
  · have ranged := fits.ranges.channels ch hch
    exact ranged.moved (brackets hch ranged.rates.2.1 ranged.rates.2.2.2) (kept ch hch).1 (kept ch hch).2
  · rw [table]; exact fits.ranges.stepTable
  · rw [bassCode, trebleCode]; exact fits.ranges.stepCodes
  · rw [(kept Shaping.ch2 (by simp)).1, (kept Shaping.ch3 (by simp)).1]; exact fits.ranges.pedalTargets

theorem point_le {n most : Nat} {v : Vector Nat n} (h : ∀ j : Fin n, v[j] ≤ most) (i : Nat) : point v i ≤ most := by
  unfold point
  by_cases hi : i < n
  · rw [Vector.getElem?_eq_getElem hi]
    exact h ⟨i, hi⟩
  · rw [Vector.getElem?_eq_none (by omega)]
    exact Nat.zero_le _

/-- A figure between two points stays below their bound (R98, R157). -/
theorem interpolate_le {n most : Nat} {v : Vector Nat n} (h : ∀ j : Fin n, v[j] ≤ most) (i f parts : Nat) (hf : f ≤ parts)
    (hp : 0 < parts) : interpolate v i f parts ≤ most := by
  have value := interpolate_value v i f parts hf hp
  have ha := point_le h i
  have hb := point_le h (i + 1)
  generalize interpolate v i f parts = x at *
  generalize point v i = a at *
  generalize point v (i + 1) = b at *
  have share : ((b : Int) - a) * f / parts ≤ most - a := by
    apply Int.ediv_le_of_le_mul (by omega)
    have h1 : ((b : Int) - a) * f ≤ (most - a) * f := by gcongr
    have h2 : ((most : Int) - a) * f ≤ (most - a) * parts := by gcongr; omega
    exact h1.trans h2
  omega

theorem PlayerFits.ownerDuty_le {s : State} (fits : PlayerFits s) (i : Fin 91) : s.ownerDuty i ≤ 1000 := by
  have curve (v : Vector Nat 5) (h : ∀ j : Fin 5, v[j] ≤ 1000) (x : Nat) : curveDuty v x ≤ 1000 :=
    interpolate_le h _ _ _ (by omega) (by omega)
  unfold State.ownerDuty
  split
  · rename_i hk
    have := appliedHoldDuty_le (s.key ⟨i.val, hk⟩).thermal (s.keyCal ⟨i.val, hk⟩).holdDuty
    have := (fits.ranges.keyCal ⟨i.val, hk⟩).2.2.1
    unfold State.keyDuty
    split <;> omega
  · split
    · exact curve _ (fun j => (fits.ranges.curves j).1) _
    · split
      · exact curve _ (fun j => (fits.ranges.curves j).2) _
      · have := fits.ranges.sostenutoHold
        unfold State.sostenutoDuty
        split <;> omega

theorem PlayerFits.frameBoundary {s : State} (fits : PlayerFits s) : PlayerFits s.frameBoundary := by
  have taken (i : Fin 91) : s.takeDuties[i] ≤ 1000 := by
    have owner := fits.ownerDuty_le i
    simp only [State.takeDuties, Fin.getElem_fin, Vector.getElem_ofFn]
    split <;> omega
  unfold State.frameBoundary
  generalize s.takeDuties = duties at *
  exact ⟨{ fits.ranges with duties := taken }, { fits.keys with }, { fits.notes with }, { fits.drive with },
    { fits.entries with }⟩

theorem PlayerFits.startFailed {s : State} (fits : PlayerFits s) : PlayerFits s.startFailed := by
  unfold State.startFailed
  split
  · exact fits.enterPaused _
  · exact fits

/-- A key that comes to rest starts nothing (R144). -/
theorem PlayerFits.rests {s : State} (fits : PlayerFits s) {k : Key} (quiet : (s.key k).phase.isStrike = false) (rested : Bool)
    (since : Time) : PlayerFits (s.setKey k { s.key k with phase := .idle rested, idleSince := since }) :=
  fits.of_queueMoves (.setKey s k ⟨rfl, rfl, quiet.symm, nofun, .inl rfl⟩)

theorem PlayerFits.pulledIn {s : State} (fits : PlayerFits s) (on : s.pedals.sostenuto ≠ .off) :
    PlayerFits (s.setSostenuto .hold) :=
  ⟨{ fits.ranges with }, { fits.keys with }, { fits.notes with },
    { fits.drive with sostenuto := ⟨fun _ => fits.drive.sostenuto.1 on, fun _ => nofun⟩ }, { fits.entries with }⟩

end Sys2Proof.Machine

/-! PROOF. The invariant, the player's half: every step keeps it. -/

namespace Sys2Proof.Machine

/-! ## Commands and steps -/

theorem idle_of_testStrikeCheck {s : State} {key : BitVec 8} {k : Key} (passes : s.testStrikeCheck key = .ok k) :
    (s.session.state = .noRoll ∨ s.session.state = .loaded) ∧ s.drive.actEn = true := by
  unfold State.testStrikeCheck at passes
  split at passes
  · cases passes
  · rename_i idle
    split at passes
    · cases passes
    · rename_i powered
      exact ⟨by by_contra other; exact idle (not_or.1 other), by simpa using powered⟩

/-- Every command keeps the player's half of the invariant. -/
theorem PlayerFits.exec {s t : State} (fits : PlayerFits s) {i : Instr} (done : exec i s = .next t) : PlayerFits t := by
  cases i with
  | pinReset => cases done; exact .pinReset s
  | transactionStart l =>
    cases done
    show PlayerFits (s.startTransaction l)
    unfold State.startTransaction
    dsimp only
    split
    · exact fits.setLink _ _
    all_goals exact fits
  | frameDiscard l f =>
    cases done
    show PlayerFits (s.discardFrame l f)
    unfold State.discardFrame
    split
    · exact fits.setLink _ _
    · exact (fits.setLink _ _).setLink _ _
  | unknownRequest h code =>
    cases done
    show PlayerFits (s.answerUnknown h)
    unfold State.answerUnknown
    split
    · exact fits.setLink _ _
    · exact (fits.setLink _ _).setLink _ _
  | transportStatus h => cases done; exact fits.request h _ _ fun _ fits => fits
  | performanceStatus h => cases done; exact fits.request h _ _ fun _ fits => fits
  | readEvents h => cases done; exact fits.request h _ _ fun _ fits => fits
  | ackEvents h kinds => cases done; exact fits.request h _ _ fun _ fits => fits.setLink _ _
  | setEventMask h kinds => cases done; exact fits.request h _ _ fun _ fits => fits.setLink _ _
  | scanLine h index left right flags photosites =>
    cases done; exact fits.request h _ _ fun _ fits => fits.takeLine _
  | rollLoaded h rate =>
    cases done
    refine fits.request h _ _ fun u fits => ?_
    split
    · exact fits.loadRoll ‹_› _
    · exact fits
  | rollRemoved h =>
    cases done
    refine fits.request h _ _ fun u fits => ?_
    show PlayerFits (if u.session.state = .noRoll then u else u.removeRoll)
    split
    · exact fits
    · exact fits.removeRoll
  | rewound h =>
    cases done
    refine fits.request h _ _ fun u fits => ?_
    split
    · exact fits.startRoll (.inr ‹_›)
    · exact fits
  | intakeRestart h => cases done; exact fits.request h _ _ fun _ fits => fits.restartIntake
  | play h =>
    cases done
    refine fits.request h _ _ fun u fits => ?_
    split
    · exact fits
    · exact fits.enterStarting (actEn_of_playRefusal ‹_›)
  | pause h =>
    cases done
    refine fits.request h _ _ fun u fits => ?_
    split
    iterate 3 exact fits.enterPaused _
    all_goals exact fits
  | stop h =>
    cases done
    refine fits.request h _ _ fun u fits => ?_
    split
    iterate 5 exact fits.enterReturning _
    all_goals exact fits
  | setTempo h factor => cases done; exact fits.request h _ _ fun _ fits => fits.setTempo (clamp_between (by omega) _)
  | setTranspose h value =>
    cases done
    refine fits.request h _ _ fun u fits => fits.withConsole rfl ?_
    have range := clampInt_eq (-12) 12 value.toInt (by omega)
    exact { fits.ranges.console with transpose := by dsimp only; omega }
  | setShading h mode weight gain =>
    cases done
    refine fits.request h _ _ fun u fits => ?_
    split
    · exact fits.setShading _ _ _
    · exact fits
  | setLevers h bass treble =>
    cases done
    refine fits.request h _ _ fun u fits => fits.withConsole rfl ?_
    exact { fits.ranges.console with levers := ⟨clamp_zero_le _ _, clamp_zero_le _ _⟩ }
  | setConsolePedals h damper soft sostenuto =>
    cases done
    refine fits.request h _ _ fun u fits => ?_
    split
    · exact fits.setConsolePedals _ _ _
    · exact fits
  | writeKeyCal h key record =>
    cases done
    refine fits.request h _ _ fun u fits => ?_
    split
    · exact fits.writeKeyCal _ _
    · exact fits
  | readKeyCal h key =>
    cases done
    refine fits.request h _ _ fun u fits => ?_
    split <;> exact fits
  | writeStepTable h levels => cases done; exact fits.request h _ _ fun _ fits => fits.writeStepTable levels
  | writeChannel h channel rateA rateB =>
    cases done
    refine fits.request h _ _ fun u fits => ?_
    split
    · exact fits.setRates _ _ _
    · exact fits
  | writePedalCurve h selector values => cases done; exact fits.request h _ _ fun _ fits => fits.writeCurve _ _
  | writeSostenutoHoldDuty h values => cases done; exact fits.request h _ _ fun _ fits => fits.writeCurve _ _
  | setTiming h fields =>
    cases done
    refine fits.request h _ _ fun u fits => ?_
    split
    iterate 3 exact fits
    all_goals exact fits.withTiming (storedTiming_inRange fields)
  | driveEnable h value => cases done; exact fits.request h _ _ fun _ fits => fits.driveRequest _
  | driveDisable h => cases done; exact fits.request h _ _ fun _ fits => fits.driveRequest _
  | testStrike h key intensity holdMs =>
    cases done
    refine fits.request h _ _ fun u fits => ?_
    split
    · rename_i k passes
      obtain ⟨idle, powered⟩ := idle_of_testStrikeCheck passes
      exact fits.testStrike idle powered k _ _
    · exact fits
  | readKeyState h key =>
    cases done
    refine fits.request h _ _ fun u fits => ?_
    split <;> exact fits
  | readCounters h => cases done; exact fits.request h _ _ fun _ fits => fits
  | resetCore h => cases done; exact fits.request h _ _ fun _ fits => fits.coreReset
  | faultEdge =>
    cases done
    split
    · exact fits
    · exact fits.faultEdge
  | faultInputRelease => cases done; exact fits.faultInputRelease
  | decodeCompletion =>
    cases done
    split
    · exact fits
    · exact fits.completeDecode
  | stallTimerExpiry =>
    cases done
    split
    · refine PlayerFits.reportStall ?_ _
      exact fits.of_others rfl rfl id fits.ranges.decode fits.ranges.speed
    · exact fits
  | startupTimerExpiry =>
    cases done
    split
    · refine PlayerFits.startFailed ?_
      exact fits.of_others rfl rfl id fits.ranges.decode fits.ranges.speed
    · exact fits
  | expressionTick =>
    cases done
    split
    · exact fits.expressionTick
    · exact fits
  | thermalTick =>
    cases done
    split
    · exact fits.thermalTick
    · exact fits
  | pwmFrameBoundary =>
    cases done
    split
    · exact fits.frameBoundary
    · exact fits
  | releaseEntryPerform => cases done; exact fits.performNext _
  | takeoverReleasePerform => cases done; exact fits.performNext _
  | pedalEntryPerform => cases done; exact fits.performNext _
  | endEntryPerform => cases done; exact fits.performNext _
  | strikeStart => cases done; exact fits.grant
  | strikeEnd k =>
    cases done
    split
    · rename_i running
      split
      · exact fits.endStrike (by rw [running]; rfl) _ _
      · exact fits
    all_goals exact fits
  | settleEnd k =>
    cases done
    split
    · rename_i releasing
      split
      · exact fits.rests (by rw [releasing]; rfl) _ _
      · exact fits
    all_goals exact fits
  | keyRested k =>
    cases done
    split
    · rename_i idle
      split
      · exact fits.rests (by rw [idle]; rfl) _ _
      · exact fits
    all_goals exact fits
  | pullInEnd =>
    cases done
    split
    · rename_i pulling
      split
      · exact fits.pulledIn (by rw [pulling]; nofun)
      · exact fits
    all_goals exact fits
  | selectReleaseAfterPinReset l =>
    cases done
    split
    · exact fits.setLink _ _
    · exact fits

theorem PlayerFits.step {s t : State} (fits : PlayerFits s) (done : step s = .next t) : PlayerFits t := by
  unfold Machine.step at done
  split at done
  · rename_i c rest waiting
    refine PlayerFits.exec (s := { s with pending := rest }) ?_ done
    exact fits.of_others rfl rfl id fits.ranges.decode fits.ranges.speed
  · unfold idleStep at done
    split at done
    · refine PlayerFits.exec (s := s.drawn) ?_ done
      exact fits.of_others rfl rfl id fits.ranges.decode fits.ranges.speed
    · cases done
      exact fits.of_others rfl rfl id fits.ranges.decode fits.ranges.speed


/-- Settles O55: the player's half of the invariant is inductive. -/
theorem stepKeepsTheRanges : Obligations.StepKeepsTheRanges := fun _ _ inv done => (inv.player.step done).ranges

/-- Settles O56: the player's half of the invariant is inductive. -/
theorem stepKeepsSlotsAndHeat : Obligations.StepKeepsSlotsAndHeat := fun _ _ inv done => (inv.player.step done).keys

/-- Settles O58: the player's half of the invariant is inductive. -/
theorem stepKeepsTheSilence : Obligations.StepKeepsTheSilence := fun _ _ inv done => (inv.player.step done).notes

/-- Settles O59: the player's half of the invariant is inductive. -/
theorem stepKeepsTheDrive : Obligations.StepKeepsTheDrive := fun _ _ inv done => (inv.player.step done).drive

/-- Settles O60: the player's half of the invariant is inductive. -/
theorem stepKeepsEntriesAndOwners : Obligations.StepKeepsEntriesAndOwners := fun _ _ inv done =>
  (inv.player.step done).entries

end Sys2Proof.Machine

/-! PROOF. The invariant, the transport's half: intake, session, timers, monitor and tracker, and the entries of the session states. -/

namespace Sys2Proof.Machine

/-! ## The transport's half of the invariant -/

/-- The intake's own terms: nothing queued while it is OFF, at most 16 lines, and a last position with every expected index (R3,
R5, R9). -/
structure Intake.Holds (i : Intake) : Prop where
  emptied : i.state = .off → i.queue = []
  capacity : i.queue.length ≤ 16
  lastPosition : i.expected ≠ none → i.lastPosition ≠ none

/-- A timer runs only in its session state, and the monitor is idle outside STARTING and PLAYING: what a move of the session needs
of the state it leaves (R49, R51, R52). -/
structure TimersFit (s : State) : Prop where
  stallTimer : s.session.state ≠ .playing → s.stallTimer = none
  startupTimer : s.session.state ≠ .starting → s.startupTimer = none
  speed : s.session.state ≠ .starting → s.session.state ≠ .playing → s.speed = s.speed.inactive

/-- The parts of the invariant that speak of intake, session, timers, monitor and tracker, but for the running decode. -/
structure TransportFits (s : State) : Prop where
  off : s.intake.state = .off ↔ s.session.state = .noRoll ∨ s.session.state = .returning
  intake : s.intake.Holds
  session : SessionFits s

/-- A decode runs exactly while a line is queued, and began at most 120 µs ago (R12). -/
structure DecodeFits (s : State) : Prop where
  decode : s.intake.decode.isSome = true ↔ s.intake.queue ≠ []
  decodeTime : s.decodeElapsed ≤ 120

theorem Invariant.transport {s : State} (inv : Invariant s) : TransportFits s :=
  ⟨inv.intake.off, ⟨inv.intake.emptied, inv.intake.capacity, inv.intake.lastPosition⟩, inv.session⟩

theorem Invariant.decoding {s : State} (inv : Invariant s) : DecodeFits s := ⟨inv.intake.decode, inv.intake.decodeTime⟩

theorem TransportFits.intakeFits {s : State} (fits : TransportFits s) (decoding : DecodeFits s) : IntakeFits s :=
  ⟨fits.off, fits.intake.emptied, fits.intake.capacity, decoding.decode, decoding.decodeTime, fits.intake.lastPosition⟩

theorem TransportFits.timers {s : State} (fits : TransportFits s) : TimersFit s where
  stallTimer still := by
    by_contra on
    exact still (fits.session.stallTimer.1 (Option.isSome_iff_ne_none.2 on))
  startupTimer still := by
    by_contra on
    exact still (fits.session.startupTimer.1 (Option.isSome_iff_ne_none.2 on))
  speed := fits.session.speedIdle

/-- The transport's half rests on six blocks, and of the tracker on whether it is LOST. -/
theorem TransportFits.congr {s t : State} (fits : TransportFits s) (intake : t.intake = s.intake) (session : t.session = s.session)
    (stallTimer : t.stallTimer = s.stallTimer) (startupTimer : t.startupTimer = s.startupTimer) (speed : t.speed = s.speed)
    (lost : t.tracker.state = .lost ↔ s.tracker.state = .lost) : TransportFits t := by
  obtain ⟨off, holds, causes, stall, startup, confirmed, idle, starting, playing, running, stalled⟩ := fits
  rw [← intake, ← session] at off
  rw [← session] at causes stall startup confirmed idle starting playing running stalled
  rw [← intake] at holds running stalled
  rw [← stallTimer] at stall
  rw [← startupTimer] at startup
  rw [← speed] at idle starting playing
  rw [ne_eq, ← lost] at running
  rw [← lost] at stalled
  exact ⟨off, holds, causes, stall, startup, confirmed, idle, starting, playing, running, stalled⟩

theorem DecodeFits.congr {s t : State} (fits : DecodeFits s) (intake : t.intake = s.intake) (clock : t.clock = s.clock) :
    DecodeFits t := by
  obtain ⟨decode, time⟩ := fits
  unfold State.decodeElapsed at time
  rw [← intake] at decode
  rw [← intake, ← clock] at time
  exact ⟨decode, time⟩

/-- An intake with no line and no decode fits at every moment. -/
theorem DecodeFits.of_emptied {t : State} (queue : t.intake.queue = []) (decode : t.intake.decode = none) : DecodeFits t :=
  ⟨by simp [queue, decode], by rw [State.decodeElapsed_none decode]; omega⟩

/-! ## Entries of the session states -/

theorem Intake.Holds.stopped {i : Intake} (h : i.Holds) : i.stopped.Holds :=
  ⟨fun _ => rfl, by simp [Intake.stopped, Intake.emptied], h.lastPosition⟩

theorem TimersFit.left {s t : State} (timers : TimersFit s) (stops : StopsRunning s t) :
    t.stallTimer = none ∧ t.startupTimer = none ∧ t.speed = t.speed.inactive := by
  refine ⟨?_, ?_, ?_⟩
  · rw [stops.stallTimer]
    split
    · rfl
    · exact timers.stallTimer ‹_›
  · rw [stops.startupTimer]
    split
    · rfl
    · exact timers.startupTimer ‹_›
  · rw [stops.speed]
    split
    · rfl
    · rename_i still
      exact timers.speed (fun h => still (.inl h)) fun h => still (.inr h)

/-- A session that has left STARTING and PLAYING for a state other than STALLED. -/
theorem TransportFits.stands {s t : State} {st : SessionState} {c : Option LastCause} (timers : TimersFit s)
    (stops : StopsRunning s t) (session : t.session = s.session.movedTo st c) (notRunning : st ≠ .starting ∧ st ≠ .playing)
    (notStalled : st ≠ .stalled) (rolling : st ≠ .noRoll) (off : t.intake.state = .off ↔ st = .returning)
    (holds : t.intake.Holds) : TransportFits t := by
  obtain ⟨stall, startup, idle⟩ := timers.left stops
  have state : t.session.state = st := by rw [session]; rfl
  refine ⟨?_, holds, ?_⟩
  · rw [off, state]; simp [rolling]
  · refine ⟨?_, ?_, ?_, ?_, fun _ _ => idle, ?_, ?_, ?_, ?_⟩
    all_goals rw [state]
    · simp [session, Session.movedTo, notStalled]
    · simp [stall, notRunning]
    · simp [startup, notRunning]
    · simp [rolling, notRunning]
    · simp [notRunning]
    · simp [notRunning]
    · simp [notRunning]
    · simp [notStalled]

theorem TransportFits.enterPaused {s : State} (timers : TimersFit s) (holds : s.intake.Holds) (on : s.intake.state ≠ .off)
    (c : Option LastCause) : TransportFits (s.enterPaused c) := by
  obtain ⟨session, -, -, stops⟩ := s.enterPaused_spec c
  have intake : (s.enterPaused c).intake = s.intake := by simp
  exact .stands timers stops session (by simp) (by simp) (by simp) (by simp [on]) (intake ▸ holds)

theorem TransportFits.enterReturning {s : State} (timers : TimersFit s) (holds : s.intake.Holds) (c : LastCause) :
    TransportFits (s.enterReturning c) := by
  obtain ⟨session, -, -, stops, intake⟩ := s.enterReturning_spec c
  have stopped : (s.enterReturning c).intake = s.intake.stopped := intake
  exact .stands timers stops session (by simp) (by simp) (by simp) (by simp [stopped, Intake.stopped])
    (stopped ▸ holds.stopped)

/-- A session in STALLED whose causes agree with intake and tracker. -/
theorem TransportFits.stalls {t : State} (state : t.session.state = .stalled) (causes : t.session.causes ≠ CauseSet.empty)
    (rests : t.stallTimer = none ∧ t.startupTimer = none ∧ t.speed = t.speed.inactive) (on : t.intake.state ≠ .off)
    (holds : t.intake.Holds) (halt : t.session.causes.intakeHalt = true ↔ t.intake.state = .halted)
    (tracking : t.session.causes.tracking = true ↔ t.tracker.state = .lost) : TransportFits t := by
  obtain ⟨stall, startup, idle⟩ := rests
  refine ⟨by simp [on, state], holds, ?_, ?_, ?_, ?_, fun _ _ => idle, ?_, ?_, ?_, fun _ => ⟨halt, tracking⟩⟩
  all_goals rw [state]
  · simp [causes]
  · simp [stall]
  · simp [startup]
  all_goals simp

theorem TransportFits.enterStalled {s : State} (timers : TimersFit s) (holds : s.intake.Holds) (on : s.intake.state ≠ .off)
    {c : StallCause} (halt : c = .intakeHalt ↔ s.intake.state = .halted) (tracking : c = .tracking ↔ s.tracker.state = .lost) :
    TransportFits (s.enterStalled c) := by
  obtain ⟨session, -, -, stops⟩ := s.enterStalled_spec c
  have intake : (s.enterStalled c).intake = s.intake := by simp
  have tracker : (s.enterStalled c).tracker = s.tracker := by simp
  refine .stalls (by rw [session]) ?_ (timers.left stops) (intake ▸ on) (intake ▸ holds) ?_ ?_
  · rw [session]; cases c <;> simp [CauseSet.add, CauseSet.empty]
  · rw [session, intake, ← halt]; cases c <;> simp [CauseSet.add, CauseSet.empty]
  · rw [session, tracker, ← tracking]; cases c <;> simp [CauseSet.add, CauseSet.empty]

end Sys2Proof.Machine

/-! PROOF. The invariant: STARTING, stall causes and their ends (chapter 4). -/

namespace Sys2Proof.Machine

/-! ## STARTING, stall causes and their ends -/

/-- An entry to STARTING with an accepting intake goes on as R59 has it. -/
theorem TransportFits.enterStarting {s : State} (timers : TimersFit s) (holds : s.intake.Holds)
    (accepting : s.intake.state = .accepting) : TransportFits s.enterStarting := by
  obtain ⟨session, -, -, startup, speed, stall⟩ := s.begunStarting_spec
  have intake : s.begunStarting.intake = s.intake := by simp
  have tracker : s.begunStarting.tracker = s.tracker := by simp
  have state : s.begunStarting.session.state = .starting := by rw [session]
  have stopped : s.begunStarting.stallTimer = none := by
    rw [stall]
    split
    · rfl
    · exact timers.stallTimer ‹_›
  have begun : TimersFit s.begunStarting := ⟨fun _ => stopped, fun h => absurd state h, fun h => absurd state h⟩
  have begunHolds : s.begunStarting.intake.Holds := intake ▸ holds
  have on : s.begunStarting.intake.state ≠ .off := by rw [intake, accepting]; nofun
  rw [State.enterStarting_cases]
  split
  · exact .enterReturning begun begunHolds _
  · rename_i unconfirmed
    split
    · rename_i lost
      refine .enterStalled begun begunHolds on ?_ ?_
      · simp [accepting]
      · simp [lost]
    · rename_i found
      refine ⟨by rw [intake, accepting, state]; simp, begunHolds, ?_, ?_, ?_, ?_, fun h => absurd state h, ?_, ?_, ?_, ?_⟩
      all_goals rw [state]
      · simp [session]
      · simp [stopped]
      · simp [startup]
      · simp [session, unconfirmed]
      · rw [speed]; simp [Speed.inactive]
      · simp
      · rw [intake, tracker]; exact fun _ => ⟨accepting, found⟩
      · simp

/-- A cause held in STALLED, with intake and tracker as its end leaves them, ends (R64). -/
theorem TransportFits.stallEnded {s : State} {c : StallCause} (timers : TimersFit s) (holds : s.intake.Holds)
    (stalled : s.session.state = .stalled) (held : s.session.causes.holds c = true) (on : s.intake.state ≠ .off)
    (halt : (s.session.causes.remove c).intakeHalt = true ↔ s.intake.state = .halted)
    (tracking : (s.session.causes.remove c).tracking = true ↔ s.tracker.state = .lost) : TransportFits (s.reportStallEnd c) := by
  unfold State.reportStallEnd
  rw [if_pos ⟨stalled, held⟩]
  dsimp only
  split
  · rename_i emptied
    refine .enterStarting ⟨timers.stallTimer, timers.startupTimer, timers.speed⟩ holds ?_
    rw [emptied] at halt
    cases hi : s.intake.state with
    | accepting => rfl
    | off => exact absurd hi on
    | halted => rw [hi] at halt; simp [CauseSet.empty] at halt
  · rename_i others
    exact .stalls stalled others ⟨timers.stallTimer (by simp [stalled]), timers.startupTimer (by simp [stalled]),
      timers.speed (by simp [stalled]) (by simp [stalled])⟩ on holds halt tracking

/-- The end of a cause that is not held, or not in STALLED, changes nothing. -/
theorem State.reportStallEnd_unheld {s : State} {c : StallCause}
    (h : s.session.state = .stalled → s.session.causes.holds c = false) : s.reportStallEnd c = s := by
  unfold State.reportStallEnd
  rw [if_neg]
  rintro ⟨stalled, held⟩
  rw [h stalled] at held
  cases held

/-- The lines that resume end NO_LINES alone (R51, R64). -/
theorem TransportFits.linesResume {s : State} (fits : TransportFits s) : TransportFits (s.reportStallEnd .noLines) := by
  by_cases held : s.session.state = .stalled ∧ s.session.causes.holds .noLines = true
  · obtain ⟨stalled, held⟩ := held
    obtain ⟨halt, tracking⟩ := fits.session.stalled stalled
    exact .stallEnded fits.timers fits.intake stalled held (by rw [ne_eq, fits.off]; simp [stalled]) halt tracking
  · rw [State.reportStallEnd_unheld fun h => by simpa [h] using held]
    exact fits

theorem TransportFits.on {s : State} (fits : TransportFits s) (state : s.session.state ≠ .noRoll ∧ s.session.state ≠ .returning) :
    s.intake.state ≠ .off := by
  rw [ne_eq, fits.off]
  simp [state]

/-- A running session has an accepting intake and a tracker that is not LOST; in STALLED a held cause joins those that stand. -/
theorem TransportFits.reportStall {s u : State} (fits : TransportFits s) {c : StallCause} (timers : TimersFit u)
    (holds : u.intake.Holds) (session : u.session = s.session) (off : u.intake.state = .off ↔ s.intake.state = .off)
    (running : s.session.state = .starting ∨ s.session.state = .playing →
      (c = .intakeHalt ↔ u.intake.state = .halted) ∧ (c = .tracking ↔ u.tracker.state = .lost))
    (stalled : s.session.state = .stalled →
      ((s.session.causes.add c).intakeHalt = true ↔ u.intake.state = .halted) ∧
      ((s.session.causes.add c).tracking = true ↔ u.tracker.state = .lost))
    (still : s.session.state ≠ .starting → s.session.state ≠ .playing →
      u.stallTimer = s.stallTimer ∧ u.startupTimer = s.startupTimer ∧ u.speed = s.speed) :
    TransportFits (u.reportStall c) := by
  have state : u.session.state = s.session.state := by rw [session]
  have on (h : s.session.state ≠ .noRoll ∧ s.session.state ≠ .returning) : u.intake.state ≠ .off := by
    rw [ne_eq, off]; exact fits.on h
  have stands (h : s.session.state ≠ .starting ∧ s.session.state ≠ .playing ∧ s.session.state ≠ .stalled) : TransportFits u := by
    obtain ⟨stallTimer, startupTimer, speed⟩ := still h.1 h.2.1
    have base := fits.session
    refine ⟨by rw [off, state]; exact fits.off, holds, ?_⟩
    refine ⟨?_, ?_, ?_, ?_, ?_, ?_, ?_, ?_, ?_⟩
    all_goals rw [session]
    · exact base.causes
    · rw [stallTimer]; exact base.stallTimer
    · rw [startupTimer]; exact base.startupTimer
    · exact base.endConfirmed
    · rw [speed]; exact base.speedIdle
    · exact fun x => absurd x h.1
    · exact fun x => absurd x h.2.1
    · exact fun x => x.elim (fun x => absurd x h.1) fun x => absurd x h.2.1
    · exact fun x => absurd x h.2.2
  have stops (h : s.session.state = .starting ∨ s.session.state = .playing) : TransportFits (u.enterStalled c) :=
    .enterStalled timers holds (on (by rcases h with h | h <;> simp [h])) (running h).1 (running h).2
  unfold State.reportStall
  cases hs : s.session.state <;> simp only [state, hs]
  case starting => exact stops (.inl hs)
  case playing => exact stops (.inr hs)
  case stalled =>
    obtain ⟨halt, tracking⟩ := stalled hs
    have added : s.session.causes.add c ≠ CauseSet.empty := by
      cases c <;> simp [CauseSet.add, CauseSet.empty]
    refine .stalls (by rw [← hs, ← state]) ?_ ⟨?_, ?_, ?_⟩ (on (by simp [hs])) holds ?_ ?_
    · rw [session]; exact added
    · exact timers.stallTimer (by simp [state, hs])
    · exact timers.startupTimer (by simp [state, hs])
    · exact timers.speed (by simp [state, hs]) (by simp [state, hs])
    · rw [session]; exact halt
    · rw [session]; exact tracking
  all_goals exact stands (by simp [hs])

end Sys2Proof.Machine

/-! PROOF. The invariant: lines, measurements and the lock leave intake and session in agreement (chapters 1 and 3). -/

namespace Sys2Proof.Machine

/-! ## Blocks the transport's half does not rest on -/

/-- t has the blocks of s that the transport's half and the running decode rest on. -/
structure SameTransport (s t : State) : Prop where
  clock : t.clock = s.clock
  intake : t.intake = s.intake
  tracker : t.tracker = s.tracker
  speed : t.speed = s.speed
  stallTimer : t.stallTimer = s.stallTimer
  startupTimer : t.startupTimer = s.startupTimer
  session : t.session = s.session

theorem TransportFits.same {s t : State} (fits : TransportFits s) (h : SameTransport s t) : TransportFits t :=
  fits.congr h.intake h.session h.stallTimer h.startupTimer h.speed (by rw [h.tracker])

theorem DecodeFits.same {s t : State} (fits : DecodeFits s) (h : SameTransport s t) : DecodeFits t := fits.congr h.intake h.clock

/-! ## Lines -/

theorem TransportFits.withRunningSpeed {s : State} (fits : TransportFits s) {m : Speed}
    (running : s.session.state = .starting ∨ s.session.state = .playing)
    (starting : s.session.state = .starting → m.condition = .unlocked ∧ m.inBandRun ≤ 2 ∧ m.outBandRun = 0)
    (playing : s.session.state = .playing → m.condition ≠ .unlocked ∧ m.outBandRun ≤ 3) : TransportFits { s with speed := m } :=
  ⟨fits.off, fits.intake, { fits.session with
    speedIdle := fun h h' => (running.elim h h').elim
    speedStarting := starting
    speedPlaying := playing }⟩

/-- The lock takes a session in STARTING to PLAYING, its monitor LOCKED (R60). -/
theorem TransportFits.lock {s : State} (holds : s.intake.Holds) (starting : s.session.state = .starting)
    (running : s.intake.state = .accepting ∧ s.tracker.state ≠ .lost)
    (locked : s.speed.condition ≠ .unlocked ∧ s.speed.outBandRun ≤ 3) : TransportFits s.lock := by
  have session : s.lock.session = { s.session with state := .playing, causes := CauseSet.empty } := by simp [State.lock]
  have state : s.lock.session.state = .playing := by rw [session]
  have intake : s.lock.intake = s.intake := by simp
  have tracker : s.lock.tracker = s.tracker := by simp
  have speed : s.lock.speed = s.speed := by simp [State.lock, SessionState.isRunning]
  have startup : s.lock.startupTimer = none := by simp [State.lock, starting]
  have stall : s.lock.stallTimer.isSome = true := by simp [State.lock, State.startStallTimer]
  refine ⟨by rw [intake, state, running.1]; simp, by rw [intake]; exact holds, ?_⟩
  refine ⟨?_, ?_, ?_, ?_, fun _ h => absurd state h, ?_, fun _ => ?_, fun _ => ?_, ?_⟩
  all_goals try rw [state]
  · simp [session]
  · simp [stall]
  · simp [startup]
  · simp
  · simp
  · rw [speed]; exact locked
  · rw [intake, tracker]; exact running
  · simp

theorem TransportFits.judgeStarting {s : State} (fits : TransportFits s) (starting : s.session.state = .starting) (good : Bool) :
    TransportFits (s.judgeStarting good) := by
  obtain ⟨condition, run, still⟩ := fits.session.speedStarting starting
  have running := fits.session.running (.inl starting)
  unfold State.judgeStarting
  split
  · split
    · exact .lock fits.intake starting running (by simp)
    · exact fits.withRunningSpeed (.inl starting) (fun _ => ⟨condition, by dsimp only; omega, still⟩) (by simp [starting])
  · exact fits.withRunningSpeed (.inl starting) (fun _ => ⟨condition, by simp, still⟩) (by simp [starting])

theorem TransportFits.judgePlaying {s : State} (fits : TransportFits s) (playing : s.session.state = .playing) (good : Bool) :
    TransportFits (s.judgePlaying good) := by
  obtain ⟨condition, run⟩ := fits.session.speedPlaying playing
  have moved {m : Speed} (h : m.condition ≠ .unlocked ∧ m.outBandRun ≤ 3) : TransportFits { s with speed := m } :=
    fits.withRunningSpeed (.inr playing) (by simp [playing]) fun _ => h
  have raised {m : Speed} (h : m.condition ≠ .unlocked ∧ m.outBandRun ≤ 3) :
      TransportFits (({ s with speed := m } : State).raise .speed) :=
    (moved h).same ⟨rfl, rfl, rfl, rfl, rfl, rfl, rfl⟩
  unfold State.judgePlaying
  split
  · split
    · exact raised (by simp)
    · exact moved ⟨condition, by simp⟩
  · split
    · exact fits
    · split
      · exact raised (by simp)
      · exact moved ⟨condition, by dsimp only; omega⟩

/-- Figures of a measurement leave condition and runs as they stand. -/
theorem Speed.measured_runs (m : Speed) (q tolerance : Nat) :
    (m.measured q tolerance).condition = m.condition ∧ (m.measured q tolerance).inBandRun = m.inBandRun ∧
      (m.measured q tolerance).outBandRun = m.outBandRun := ⟨rfl, rfl, rfl⟩

theorem TransportFits.measure {s : State} (fits : TransportFits s)
    (running : s.session.state = .starting ∨ s.session.state = .playing) (k T : Nat) : TransportFits (s.measure k T) := by
  unfold State.measure
  split
  · exact fits
  · obtain ⟨condition, inBandRun, outBandRun⟩ :=
      s.speed.measured_runs (ratio k T s.speed.targetRate) s.timing.speedTolerance
    dsimp only
    generalize inBand (ratio k T s.speed.targetRate) s.timing.speedTolerance = good
    generalize s.speed.measured (ratio k T s.speed.targetRate) s.timing.speedTolerance = m at *
    have measured : TransportFits { s with speed := m } := by
      refine fits.withRunningSpeed running ?_ ?_ <;> rw [condition, outBandRun]
      · rw [inBandRun]; exact fits.session.speedStarting
      · exact fits.session.speedPlaying
    split
    · exact measured.judgeStarting ‹_› _
    · exact measured.judgePlaying ‹_› _
    all_goals exact measured

theorem TransportFits.monitorLine {s : State} (fits : TransportFits s) (m : Mark) (opened : Bool) :
    TransportFits (s.monitorLine m opened) := by
  unfold State.monitorLine
  split
  · rename_i runs
    have running := (SessionState.isRunning_iff _).1 runs
    have anchored : TransportFits (s.setAnchor m) :=
      fits.withRunningSpeed running (fun h => fits.session.speedStarting h) fun h => fits.session.speedPlaying h
    split
    · exact anchored
    · split
      · exact anchored
      · dsimp only
        split
        · exact fits
        · exact anchored.measure running _ _
  · exact fits

theorem TransportFits.watchLine {s : State} (fits : TransportFits s) : TransportFits s.watchLine := by
  unfold State.watchLine
  split
  · rename_i playing
    refine ⟨fits.off, fits.intake, { fits.session with stallTimer := ?_ }⟩
    simp [State.startStallTimer, playing]
  · exact fits.linesResume
  all_goals exact fits

theorem TransportFits.withIntake {s : State} (fits : TransportFits s) {i : Intake} (state : i.state = s.intake.state)
    (holds : i.Holds) : TransportFits { s with intake := i } := by
  have session := fits.session
  refine ⟨?_, holds, { session with running := ?_, stalled := ?_ }⟩
  · rw [show ({ s with intake := i } : State).intake.state = s.intake.state from state]; exact fits.off
  · rw [show ({ s with intake := i } : State).intake.state = s.intake.state from state]; exact session.running
  · rw [show ({ s with intake := i } : State).intake.state = s.intake.state from state]; exact session.stalled

theorem State.beginDecode_cases (s : State) :
    s.beginDecode = s ∨ s.intake.queue ≠ [] ∧ s.intake.decode = none ∧
      s.beginDecode = { s with intake := { s.intake with decode := some ⟨s.clock, s.timing, s.console⟩ } } := by
  unfold State.beginDecode
  split
  · rename_i free; exact .inr ⟨free.1, free.2, rfl⟩
  · exact .inl rfl

theorem TransportFits.beginDecode {s : State} (fits : TransportFits s) : TransportFits s.beginDecode := by
  rcases s.beginDecode_cases with same | ⟨-, -, begun⟩
  · rw [same]; exact fits
  · rw [begun]; exact fits.withIntake rfl ⟨fits.intake.emptied, fits.intake.capacity, fits.intake.lastPosition⟩

theorem TransportFits.acceptLine {s : State} (fits : TransportFits s) (accepting : s.intake.state = .accepting)
    (room : s.intake.queue.length < 16) (c : CarriedLine) (position : Position) (missing : Nat) (opened : Bool) :
    TransportFits (s.acceptLine c position missing opened) := by
  have joined : TransportFits { s with intake := s.intake.joined (c.stored s.clock position) missing } := by
    refine fits.withIntake rfl ⟨fun off => ?_, ?_, nofun⟩
    · have off : s.intake.state = .off := off
      rw [accepting] at off; cases off
    · simp [Intake.joined]; omega
  exact (joined.beginDecode.monitorLine _ _).watchLine

theorem TransportFits.haltIntake {s : State} (fits : TransportFits s) (accepting : s.intake.state = .accepting) :
    TransportFits s.haltIntake := by
  have timers := fits.timers
  unfold State.haltIntake
  refine fits.reportStall ⟨timers.stallTimer, timers.startupTimer, timers.speed⟩
    ⟨nofun, fits.intake.capacity, fits.intake.lastPosition⟩ rfl ?_ (fun running => ?_) (fun stalled => ?_)
    fun _ _ => ⟨rfl, rfl, rfl⟩
  · rw [accepting]; exact ⟨nofun, nofun⟩
  · exact ⟨⟨fun _ => rfl, fun _ => rfl⟩, nofun, fun lost => absurd lost (fits.session.running running).2⟩
  · exact ⟨⟨fun _ => rfl, fun _ => rfl⟩, (fits.session.stalled stalled).2⟩

theorem TransportFits.takeLine {s : State} (fits : TransportFits s) (c : CarriedLine) : TransportFits (s.takeLine c) := by
  have counted {i : Intake} (state : i.state = s.intake.state) (queue : i.queue = s.intake.queue)
      (expected : i.expected = s.intake.expected) (last : i.lastPosition = s.intake.lastPosition) :
      TransportFits { s with intake := i } :=
    fits.withIntake state ⟨by rw [state, queue]; exact fits.intake.emptied, by rw [queue]; exact fits.intake.capacity,
      by rw [expected, last]; exact fits.intake.lastPosition⟩
  unfold State.takeLine
  split
  · exact counted rfl rfl rfl rfl
  · exact counted rfl rfl rfl rfl
  · rename_i accepting
    split
    · refine TransportFits.same (s := { s with intake := { s.intake with overruns := satAdd s.intake.overruns 1 } }) ?_
        ⟨rfl, rfl, rfl, rfl, rfl, rfl, rfl⟩
      exact counted rfl rfl rfl rfl
    · rename_i room
      rw [intakeCapacity] at room
      unfold State.checkLine
      split
      · exact fits.acceptLine accepting (by omega) _ _ _ _
      · dsimp only
        split
        · exact fits.acceptLine accepting (by omega) _ _ _ _
        · exact fits.haltIntake accepting

theorem TransportFits.restartIntake {s : State} (fits : TransportFits s) : TransportFits s.restartIntake := by
  have timers := fits.timers
  have reopened (on : s.intake.state ≠ .off) :
      TransportFits (({ s with intake := s.intake.restarted } : State).reportStallEnd .intakeHalt) := by
    have holds : s.intake.restarted.Holds := ⟨nofun, by simp [Intake.restarted, Intake.emptied], fun h => absurd rfl h⟩
    have accepts : s.intake.restarted.state = .accepting := rfl
    generalize s.intake.restarted = i at *
    by_cases held : s.session.state = .stalled ∧ s.session.causes.holds .intakeHalt = true
    · obtain ⟨stalled, held⟩ := held
      refine .stallEnded ⟨timers.stallTimer, timers.startupTimer, timers.speed⟩ holds stalled held ?_ ?_
        (fits.session.stalled stalled).2
      · simp [accepts]
      · simp [accepts, CauseSet.remove]
    · rw [State.reportStallEnd_unheld fun h => by simpa [show s.session.state = .stalled from h] using held]
      have rolling : ¬ (s.session.state = .noRoll ∨ s.session.state = .returning) := by rw [← fits.off]; exact on
      refine ⟨by simp [accepts, rolling], holds, { fits.session with running := fun h => ?_, stalled := fun h => ?_ }⟩
      · exact ⟨accepts, (fits.session.running h).2⟩
      · have unheld : s.session.causes.intakeHalt = false := by
          simpa [show s.session.state = .stalled from h, CauseSet.holds] using held
        exact ⟨by simp [unheld, accepts], (fits.session.stalled h).2⟩
  unfold State.restartIntake
  split
  · exact fits
  · exact reopened (by simp [*])
  · exact reopened (by simp [*])

end Sys2Proof.Machine

/-! PROOF. The invariant: what a decode reports to the session (chapters 2 and 4). -/

namespace Sys2Proof.Machine

/-! ## Decodes -/

/-- What the tracker's judgement of a line does to LOST (R23, R24). -/
def JudgedLost (before after : TrackingState) : Option TrackReport → Prop
  | none => after = .lost ↔ before = .lost
  | some .loss => after = .lost
  | some .regain => before = .lost ∧ after ≠ .lost

theorem Tracker.judge_lost (t : Tracker) (l : Line) :
    JudgedLost t.state (t.judge l).tracker.state (t.judge l).report := by
  unfold Tracker.judge Tracker.invalidLine Tracker.validWhileLost JudgedLost
  cases h : t.state <;> dsimp only <;> (repeat' split) <;> simp_all

/-- A loss of tracking reaches the session (R23, R63). -/
theorem TransportFits.loss {s : State} {old : Tracker} (fits : TransportFits { s with tracker := old })
    (lost : s.tracker.state = .lost) : TransportFits (s.handTracking .loss) := by
  have timers := fits.timers
  refine fits.reportStall (u := s.raise .tracking) ⟨timers.stallTimer, timers.startupTimer, timers.speed⟩ fits.intake rfl Iff.rfl
    (fun running => ?_) (fun stalled => ?_) fun _ _ => ⟨rfl, rfl, rfl⟩
  · have accepting : s.intake.state = .accepting := (fits.session.running running).1
    exact ⟨⟨nofun, fun h => nomatch accepting.symm.trans h⟩, fun _ => lost, fun _ => rfl⟩
  · exact ⟨(fits.session.stalled stalled).1, fun _ => lost, fun _ => rfl⟩

/-- A regain of tracking reaches the session (R24, R64). -/
theorem TransportFits.regain {s : State} {old : Tracker} (fits : TransportFits { s with tracker := old })
    (was : old.state = .lost) (found : s.tracker.state ≠ .lost) : TransportFits (s.handTracking .regain) := by
  have timers := fits.timers
  show TransportFits ((s.raise .tracking).reportStallEnd .tracking)
  by_cases stalled : s.session.state = .stalled
  · obtain ⟨halt, tracking⟩ := fits.session.stalled stalled
    refine .stallEnded ⟨timers.stallTimer, timers.startupTimer, timers.speed⟩ fits.intake stalled (tracking.2 was)
      (fits.on (by simp [stalled])) halt ?_
    exact ⟨nofun, fun lost => absurd lost found⟩
  · rw [State.reportStallEnd_unheld (s := s.raise .tracking) fun h => absurd h stalled]
    exact ⟨fits.off, fits.intake, { fits.session with
      running := fun h => ⟨(fits.session.running h).1, found⟩
      stalled := fun h => absurd h stalled }⟩

theorem TransportFits.handTracking {s : State} {old : Tracker} (fits : TransportFits { s with tracker := old })
    {r : TrackReport} (judged : JudgedLost old.state s.tracker.state (some r)) : TransportFits (s.handTracking r) := by
  cases r with
  | loss => exact fits.loss judged
  | regain => exact fits.regain judged.1 judged.2

theorem State.sampleLine_same (s : State) (d : Decode) (l : Line) : SameTransport s (s.sampleLine d l) := by
  constructor <;> simp

/-- The insertion of an END entry leaves the transport alone, or performs the entry at once (R69, R132). -/
theorem State.insertEnd_cases (s : State) (due : Time) :
    SameTransport s (s.insertOther due .endMark) ∨
      s.session.state = .playing ∧ s.insertOther due .endMark = s.takeSeq.enterReturning .endMark := by
  unfold State.insertOther
  dsimp only
  split
  · split
    · show _ ∨ _ ∧ s.takeSeq.performEnd = _
      unfold State.performEnd
      by_cases playing : s.session.state = .playing
      · exact .inr ⟨playing, by rw [if_pos (by simpa using playing)]⟩
      · refine .inl ?_
        show SameTransport s s.takeSeq.performEnd
        unfold State.performEnd
        rw [if_neg (by simpa using playing)]
        exact ⟨rfl, rfl, rfl, rfl, rfl, rfl, rfl⟩
    · exact .inl (by constructor <;> simp)
  · exact .inl ⟨rfl, rfl, rfl, rfl, rfl, rfl, rfl⟩

theorem TransportFits.insertEnd {s : State} (fits : TransportFits s) (due : Time) :
    TransportFits (s.insertOther due .endMark) := by
  have timers := fits.timers
  rcases s.insertEnd_cases due with same | ⟨-, performed⟩
  · exact fits.same same
  · rw [performed]
    exact .enterReturning (s := s.takeSeq) ⟨timers.stallTimer, timers.startupTimer, timers.speed⟩ fits.intake _

theorem TransportFits.confirmEnd {s : State} (fits : TransportFits s) (rolling : s.session.state ≠ .noRoll) (d : Decode)
    (stamp : Time) : TransportFits (s.confirmEnd d stamp) := by
  have timers := fits.timers
  have flagged (notStarting : s.session.state ≠ .starting) :
      TransportFits { s with session := { s.session with endConfirmed := true } } :=
    ⟨fits.off, fits.intake, { fits.session with endConfirmed := fun h => (h.elim rolling notStarting).elim }⟩
  have confirmed : TimersFit { s with session := { s.session with endConfirmed := true } } :=
    ⟨timers.stallTimer, timers.startupTimer, timers.speed⟩
  unfold State.confirmEnd
  dsimp only
  split
  · rename_i playing
    exact (flagged fun h => nomatch playing.symm.trans h).insertEnd _
  · exact .enterReturning confirmed fits.intake _
  all_goals exact flagged (fun h => by simp_all)

theorem TransportFits.testEnd {s : State} (fits : TransportFits s) (rolling : s.session.state ≠ .noRoll) (d : Decode) (l : Line) :
    TransportFits (s.testEnd d l) := by
  unfold State.testEnd
  split
  · exact fits.confirmEnd rolling _ _
  · exact fits

theorem State.enterStarting_rolling (s : State) : s.enterStarting.session.state ≠ .noRoll := by
  rw [State.enterStarting_cases]
  split
  · rw [(State.enterReturning_spec _ _).1]; nofun
  · split
    · rw [(State.enterStalled_spec _ _).1]; nofun
    · rw [s.begunStarting_spec.1]; nofun

/-- No report of the tracker ends the roll. -/
theorem State.handTracking_rolling {s : State} (rolling : s.session.state ≠ .noRoll) (r : TrackReport) :
    (s.handTracking r).session.state ≠ .noRoll := by
  cases r with
  | loss =>
    show ((s.raise .tracking).reportStall .tracking).session.state ≠ _
    unfold State.reportStall
    split
    iterate 2 rw [(State.enterStalled_spec _ _).1]; nofun
    all_goals exact rolling
  | regain =>
    show ((s.raise .tracking).reportStallEnd .tracking).session.state ≠ _
    unfold State.reportStallEnd
    dsimp only
    split
    · split
      · exact State.enterStarting_rolling _
      · exact rolling
    · exact rolling

theorem TransportFits.applyDecode {s : State} (fits : TransportFits s) (rolling : s.session.state ≠ .noRoll) (d : Decode) (l : Line) :
    TransportFits (s.applyDecode d l) := by
  have judged := s.tracker.judge_lost l
  unfold State.applyDecode
  split
  · exact fits
  · dsimp only
    generalize s.tracker.judge l = j at *
    have base : TransportFits { ({ s with tracker := j.tracker } : State) with tracker := s.tracker } := fits
    split
    · rename_i report
      rw [report] at judged
      have moved : TransportFits { s with tracker := j.tracker } := fits.congr rfl rfl rfl rfl rfl judged
      split
      · have same := State.sampleLine_same { s with tracker := j.tracker } d l
        exact (moved.same same).testEnd (by rw [same.session]; exact rolling) d l
      · exact moved
    · rename_i r report
      rw [report] at judged
      split
      · have same := State.sampleLine_same (State.handTracking { s with tracker := j.tracker } r) d l
        refine ((base.handTracking judged).same same).testEnd ?_ d l
        rw [same.session]
        exact State.handTracking_rolling (s := { s with tracker := j.tracker }) rolling r
      · have same := State.sampleLine_same { s with tracker := j.tracker } d l
        have handed : TransportFits ((State.sampleLine { s with tracker := j.tracker } d l).handTracking r) := by
          refine TransportFits.handTracking (old := s.tracker) ?_ ?_
          · refine fits.congr same.intake same.session same.stallTimer same.startupTimer same.speed Iff.rfl
          · rw [same.tracker]; exact judged
        exact handed.testEnd (State.handTracking_rolling (by rw [same.session]; exact rolling) r) d l

theorem TransportFits.completeDecode {s : State} (fits : TransportFits s) : TransportFits s.completeDecode := by
  unfold State.completeDecode
  split
  · rename_i d l rest running waiting
    have on : s.intake.state ≠ .off := fun off => by rw [fits.intake.emptied off] at waiting; cases waiting
    have taken : TransportFits { s with intake := { s.intake with queue := rest, decode := none } } := by
      refine fits.withIntake rfl ⟨fun off => absurd off on, ?_, fits.intake.lastPosition⟩
      have capacity := fits.intake.capacity
      rw [waiting] at capacity
      simp only [List.length_cons] at capacity ⊢
      omega
    have rolling : s.session.state ≠ .noRoll := fun h => on (fits.off.2 (.inl h))
    exact (taken.applyDecode rolling d l).beginDecode
  · exact fits

end Sys2Proof.Machine

/-! PROOF. The invariant: the running decode (chapter 1). -/

namespace Sys2Proof.Machine

/-! ## The running decode -/

/-- The intake stands, or is stopped and emptied (R18). -/
def KeepsIntake (s t : State) : Prop := t.intake = s.intake ∨ t.intake = s.intake.stopped

theorem KeepsIntake.trans {s t u : State} (h : KeepsIntake s t) (h' : KeepsIntake t u) : KeepsIntake s u := by
  rcases h' with same | stopped
  · unfold KeepsIntake; rw [same]; exact h
  · refine .inr ?_
    rcases h with h | h
    · rw [stopped, h]
    · rw [stopped, h]; rfl

theorem KeepsIntake.enterReturning (s : State) (c : LastCause) : KeepsIntake s (s.enterReturning c) :=
  .inr (s.enterReturning_spec c).2.2.2.2

theorem KeepsIntake.enterStarting (s : State) : KeepsIntake s s.enterStarting := by
  have begun : KeepsIntake s s.begunStarting := .inl (by simp)
  rw [State.enterStarting_cases]
  split
  · exact begun.trans (.enterReturning _ _)
  · split
    · exact begun.trans (.inl (by simp))
    · exact begun

theorem KeepsIntake.reportStallEnd (s : State) (c : StallCause) : KeepsIntake s (s.reportStallEnd c) := by
  unfold State.reportStallEnd
  dsimp only
  split
  · split
    · exact .enterStarting _
    · exact .inl rfl
  · exact .inl rfl

theorem KeepsIntake.watchLine (s : State) : KeepsIntake s s.watchLine := by
  unfold State.watchLine
  split
  · exact .inl rfl
  · exact .reportStallEnd _ _
  all_goals exact .inl rfl

theorem KeepsIntake.insertEnd (s : State) (due : Time) : KeepsIntake s (s.insertOther due .endMark) := by
  rcases s.insertEnd_cases due with same | ⟨-, performed⟩
  · exact .inl same.intake
  · rw [performed]; exact .enterReturning s.takeSeq _

theorem KeepsIntake.testEnd (s : State) (d : Decode) (l : Line) : KeepsIntake s (s.testEnd d l) := by
  have flagged : KeepsIntake s { s with session := { s.session with endConfirmed := true } } := .inl rfl
  unfold State.testEnd State.confirmEnd
  split
  · refine flagged.trans ?_
    dsimp only
    split
    · exact .insertEnd _ _
    · exact .enterReturning _ _
    all_goals exact .inl rfl
  · exact .inl rfl

theorem KeepsIntake.handTracking (s : State) (r : TrackReport) : KeepsIntake s (s.handTracking r) := by
  cases r with
  | loss => exact .inl (by simp [State.handTracking])
  | regain => exact .reportStallEnd _ _

theorem KeepsIntake.sampleLine (s : State) (d : Decode) (l : Line) : KeepsIntake s (s.sampleLine d l) := .inl (by simp)

theorem KeepsIntake.applyDecode (s : State) (d : Decode) (l : Line) : KeepsIntake s (s.applyDecode d l) := by
  unfold State.applyDecode
  split
  · exact .inl rfl
  · dsimp only
    have judged : KeepsIntake s { s with tracker := (s.tracker.judge l).tracker } := .inl rfl
    split
    · split
      · exact (judged.trans (.sampleLine _ d l)).trans (.testEnd _ d l)
      · exact judged
    · refine KeepsIntake.trans ?_ (.testEnd _ d l)
      split
      · exact (judged.trans (.handTracking _ _)).trans (.sampleLine _ d l)
      · exact (judged.trans (.sampleLine _ d l)).trans (.handTracking _ _)

theorem DecodeFits.keep {s t : State} (fits : DecodeFits s) (intake : KeepsIntake s t) (clock : t.clock = s.clock) :
    DecodeFits t := by
  rcases intake with same | stopped
  · exact fits.congr same clock
  · exact .of_emptied (by rw [stopped]; rfl) (by rw [stopped]; rfl)

theorem elapsed_self (t : Time) : elapsed t t = 0 := by simp [elapsed]

/-- A free decoder takes the head line, if there is one (R12). -/
theorem DecodeFits.begun {s : State} (free : s.intake.decode = none) : DecodeFits s.beginDecode := by
  unfold State.beginDecode
  split
  · rename_i waiting
    refine ⟨by simp [waiting.1], ?_⟩
    rw [State.decodeElapsed_some rfl, elapsed_self]
    omega
  · rename_i idle
    have queue : s.intake.queue = [] := by
      by_contra waiting
      exact idle ⟨waiting, free⟩
    exact .of_emptied queue free

/-! ## The transport's half and the running decode together -/

structure RollFits (s : State) : Prop where
  transport : TransportFits s
  decoding : DecodeFits s

theorem Invariant.roll {s : State} (inv : Invariant s) : RollFits s := ⟨inv.transport, inv.decoding⟩

theorem RollFits.same {s t : State} (fits : RollFits s) (h : SameTransport s t) : RollFits t :=
  ⟨fits.transport.same h, fits.decoding.same h⟩

theorem RollFits.keep {s t : State} (fits : RollFits s) (transport : TransportFits t) (intake : KeepsIntake s t)
    (clock : t.clock = s.clock) : RollFits t := ⟨transport, fits.decoding.keep intake clock⟩

theorem RollFits.setLink {s : State} (fits : RollFits s) (l : Link) (p : LinkPort) : RollFits (s.setLink l p) :=
  fits.same (by constructor <;> simp)

theorem RollFits.request {s : State} (fits : RollFits s) (h : Head) (permitted : Link → Bool) (length : Nat)
    {act : State → Taken} (acts : ∀ u, RollFits u → RollFits (act u).1) : RollFits (s.request h permitted length act) :=
  State.request_keeps (fun _ _ _ fits => fits.setLink _ _) fits h permitted length acts

theorem RollFits.acceptLine {s : State} (fits : RollFits s) (accepting : s.intake.state = .accepting)
    (room : s.intake.queue.length < 16) (c : CarriedLine) (position : Position) (missing : Nat) (opened : Bool) :
    RollFits (s.acceptLine c position missing opened) := by
  refine ⟨fits.transport.acceptLine accepting room c position missing opened, ?_⟩
  have joined : DecodeFits (State.beginDecode { s with intake := s.intake.joined (c.stored s.clock position) missing }) := by
    cases running : s.intake.decode with
    | none => exact .begun running
    | some d =>
      have still : State.beginDecode { s with intake := s.intake.joined (c.stored s.clock position) missing } =
          { s with intake := s.intake.joined (c.stored s.clock position) missing } := by
        unfold State.beginDecode
        rw [if_neg]
        rintro ⟨-, free⟩
        exact nomatch running.symm.trans free
      rw [still]
      have time := fits.decoding.decodeTime
      exact ⟨by simp [Intake.joined, running], time⟩
  have watched := KeepsIntake.watchLine (State.monitorLine (State.beginDecode
    { s with intake := s.intake.joined (c.stored s.clock position) missing }) ⟨position, s.clock⟩ opened)
  refine joined.keep (KeepsIntake.trans (.inl ?_) watched) ?_
  · simp
  · simp [State.acceptLine]

theorem RollFits.takeLine {s : State} (fits : RollFits s) (c : CarriedLine) : RollFits (s.takeLine c) := by
  refine ⟨fits.transport.takeLine c, ?_⟩
  have counted {t : State} (queue : t.intake.queue = s.intake.queue) (decode : t.intake.decode = s.intake.decode)
      (clock : t.clock = s.clock) : DecodeFits t := by
    obtain ⟨runs, time⟩ := fits.decoding
    unfold State.decodeElapsed at time
    exact ⟨by rw [queue, decode]; exact runs, by unfold State.decodeElapsed; rw [decode, clock]; exact time⟩
  unfold State.takeLine
  split
  · exact counted rfl rfl rfl
  · exact counted rfl rfl rfl
  · rename_i accepting
    split
    · exact counted rfl rfl rfl
    · rename_i room
      rw [intakeCapacity] at room
      unfold State.checkLine
      split
      · exact (fits.acceptLine accepting (by omega) _ _ _ _).decoding
      · dsimp only
        split
        · exact (fits.acceptLine accepting (by omega) _ _ _ _).decoding
        · exact counted (by simp [State.haltIntake]) (by simp [State.haltIntake]) (by simp)

theorem RollFits.completeDecode {s : State} (fits : RollFits s) : RollFits s.completeDecode := by
  refine ⟨fits.transport.completeDecode, ?_⟩
  unfold State.completeDecode
  split
  · rename_i d l rest running waiting
    refine .begun ?_
    rcases KeepsIntake.applyDecode { s with intake := { s.intake with queue := rest, decode := none } } d l with same | stopped
    · rw [same]
    · rw [stopped]; rfl
  · exact fits.decoding

theorem RollFits.restartIntake {s : State} (fits : RollFits s) : RollFits s.restartIntake := by
  refine ⟨fits.transport.restartIntake, ?_⟩
  have emptied : DecodeFits (({ s with intake := s.intake.restarted } : State).reportStallEnd .intakeHalt) :=
    DecodeFits.keep (s := { s with intake := s.intake.restarted }) (.of_emptied rfl rfl) (.reportStallEnd _ _) (by simp)
  unfold State.restartIntake
  split
  · exact fits.decoding
  · exact emptied
  · exact emptied

end Sys2Proof.Machine

/-! PROOF. The invariant, the transport's half: every step keeps it. -/

namespace Sys2Proof.Machine

/-! ## Moves of the session by request, entry or timer -/

theorem RollFits.enterReturning {s : State} (fits : RollFits s) (c : LastCause) : RollFits (s.enterReturning c) :=
  fits.keep (.enterReturning fits.transport.timers fits.transport.intake c) (.enterReturning s c) (by simp)

theorem RollFits.enterPaused {s : State} (fits : RollFits s) (rolling : s.session.state ≠ .noRoll ∧ s.session.state ≠ .returning)
    (c : Option LastCause) : RollFits (s.enterPaused c) :=
  fits.keep (.enterPaused fits.transport.timers fits.transport.intake (fits.transport.on rolling) c) (.inl (by simp)) (by simp)

theorem RollFits.play {s : State} (fits : RollFits s) (passes : s.playRefusal = none) : RollFits s.enterStarting := by
  have ready : (s.session.state = .loaded ∨ s.session.state = .paused) ∧ s.intake.state ≠ .halted := by
    unfold State.playRefusal at passes
    split at passes
    · cases passes
    · rename_i state
      split at passes
      · cases passes
      · split at passes
        · cases passes
        · exact ⟨by by_contra other; exact state (not_or.1 other), ‹_›⟩
  have on : s.intake.state ≠ .off := fits.transport.on (by rcases ready.1 with h | h <;> simp [h])
  have accepting : s.intake.state = .accepting := by
    cases h : s.intake.state with
    | accepting => rfl
    | off => exact absurd h on
    | halted => exact absurd h ready.2
  exact fits.keep (.enterStarting fits.transport.timers fits.transport.intake accepting) (.enterStarting s) (by simp)

/-- A performed entry leaves the transport alone, but for an END entry in PLAYING (R70, R134 to R136). -/
theorem State.perform_cases (s : State) (a : Action) (seq : BitVec 32) :
    SameTransport s (s.perform a seq) ∨ s.perform a seq = s.enterReturning .endMark := by
  cases a with
  | strike st => exact .inl ⟨rfl, rfl, rfl, rfl, rfl, rfl, rfl⟩
  | release k t => exact .inl (by show SameTransport s (s.performRelease k t seq); constructor <;> simp)
  | takeover k m => exact .inl (by show SameTransport s (s.performTakeover k m seq); constructor <;> simp)
  | pedal p v => exact .inl (by show SameTransport s (s.setRollRequest p v); constructor <;> simp)
  | endMark =>
    show SameTransport s s.performEnd ∨ s.performEnd = _
    unfold State.performEnd
    split
    · exact .inr rfl
    · exact .inl ⟨rfl, rfl, rfl, rfl, rfl, rfl, rfl⟩

theorem RollFits.performNext {s : State} (fits : RollFits s) (kind : Action → Bool) : RollFits (s.performNext kind) := by
  unfold State.performNext
  split
  · rename_i e next
    split
    · have erased : RollFits { s with queue := s.queue.erase e } := fits.same ⟨rfl, rfl, rfl, rfl, rfl, rfl, rfl⟩
      rcases State.perform_cases { s with queue := s.queue.erase e } e.action e.seq with same | ended
      · exact erased.same same
      · rw [ended]; exact erased.enterReturning _
    · exact fits
  · exact fits

theorem RollFits.driveLoss {s : State} (fits : RollFits s) (c : LastCause) : RollFits (s.driveLoss c) := by
  have cut : RollFits s.driveCut := fits.same (by constructor <;> simp [State.driveCut])
  have session : s.driveCut.session = s.session := by simp [State.driveCut]
  rw [State.driveLoss_eq]
  split
  · rename_i running
    refine cut.enterPaused ?_ _
    rw [session]
    constructor <;> intro h <;> simp [h] at running
  · exact cut

theorem RollFits.faultEffects {s : State} (fits : RollFits s) : RollFits s.faultEffects := by
  have latched : RollFits (({ s with drive := { s.drive with faultLatch := true } } : State).raise .fault) :=
    fits.same (by constructor <;> simp)
  exact latched.driveLoss _

theorem RollFits.driveRequest {s : State} (fits : RollFits s) (value : BitVec 8) : RollFits (s.driveRequest value).1 := by
  unfold State.driveRequest
  split
  · exact fits.driveLoss _
  · split
    · split
      · exact fits
      · show RollFits (if s.drive.actEn then s else s.enableDrive)
        split
        · exact fits
        · exact fits.same (by constructor <;> simp)
    · exact fits

theorem ne_none_of_timerExpired {now : Time} {timer : Option Time} (expired : timerExpired now timer = true) : timer ≠ none := by
  rintro rfl
  cases expired

theorem RollFits.writeCurve {s : State} (fits : RollFits s) (selector : BitVec 8) (values : Vector (BitVec 16) 5) :
    RollFits (s.writeCurve selector values).1 := by
  have stored (c : Calibration) : RollFits { s with calibration := c } := fits.same ⟨rfl, rfl, rfl, rfl, rfl, rfl, rfl⟩
  unfold State.writeCurve
  split
  · exact stored _
  · split
    · exact stored _
    · split
      · exact stored _
      · exact fits

theorem RollFits.stallTimerExpiry {s : State} (fits : RollFits s) (running : s.stallTimer ≠ none) :
    RollFits (({ s with stallTimer := none } : State).reportStall .noLines) := by
  have timers := fits.transport.timers
  have session := fits.transport.session
  have playing : s.session.state = .playing := session.stallTimer.1 (Option.isSome_iff_ne_none.2 running)
  refine fits.keep ?_ (.inl (by simp)) (by simp)
  refine fits.transport.reportStall (u := { s with stallTimer := none }) ⟨fun _ => rfl, timers.startupTimer, timers.speed⟩
    fits.transport.intake rfl Iff.rfl (fun running => ?_) (fun stalled => ?_) fun _ h => absurd playing h
  case refine_2 => rw [playing] at stalled; cases stalled
  obtain ⟨accepting, found⟩ := session.running running
  exact ⟨⟨nofun, fun h => nomatch accepting.symm.trans h⟩, nofun, fun lost => absurd lost found⟩

theorem RollFits.startupTimerExpiry {s : State} (fits : RollFits s) (running : s.startupTimer ≠ none) :
    RollFits ({ s with startupTimer := none } : State).startFailed := by
  have timers := fits.transport.timers
  have starting : s.session.state = .starting := fits.transport.session.startupTimer.1 (Option.isSome_iff_ne_none.2 running)
  unfold State.startFailed
  rw [if_pos starting]
  refine fits.keep ?_ (.inl (by simp)) (by simp)
  have on := fits.transport.on (by simp [starting])
  exact TransportFits.enterPaused (s := { s with startupTimer := none })
    ⟨timers.stallTimer, fun _ => rfl, timers.speed⟩ fits.transport.intake on _

/-! ## The roll -/

/-- A session in NO_ROLL or LOADED, nothing of a performance left. -/
theorem TransportFits.rests {t : State} (state : t.session.state = .noRoll ∨ t.session.state = .loaded)
    (causes : t.session.causes = CauseSet.empty) (confirmed : t.session.endConfirmed = false)
    (stopped : t.stallTimer = none ∧ t.startupTimer = none ∧ t.speed = t.speed.inactive)
    (off : t.intake.state = .off ↔ t.session.state = .noRoll) (holds : t.intake.Holds) : TransportFits t := by
  obtain ⟨stall, startup, idle⟩ := stopped
  have others : t.session.state ≠ .starting ∧ t.session.state ≠ .playing ∧ t.session.state ≠ .stalled ∧
      t.session.state ≠ .returning := by
    rcases state with h | h <;> simp [h]
  obtain ⟨h1, h2, h3, h4⟩ := others
  refine ⟨by rw [off]; simp [h4], holds, ?_⟩
  exact
    { causes := by simp [causes, h3]
      stallTimer := by simp [stall, h2]
      startupTimer := by simp [startup, h1]
      endConfirmed := fun _ => confirmed
      speedIdle := fun _ _ => idle
      speedStarting := fun h => absurd h h1
      speedPlaying := fun h => absurd h h2
      running := fun h => (h.elim h1 h2).elim
      stalled := fun h => absurd h h3 }

theorem Speed.eq_inactive_iff {m : Speed} : m = m.inactive ↔
    m.anchor = none ∧ m.condition = .unlocked ∧ m.inBandRun = 0 ∧ m.outBandRun = 0 ∧ m.trim = 0 := by
  obtain ⟨nominalRate, tempo, anchor, lastRatio, condition, inBandRun, outBandRun, trim, outOfBand⟩ := m
  simp [Speed.inactive]

theorem RollFits.startRoll {s : State} (fits : RollFits s) (resting : s.session.state = .noRoll ∨ s.session.state = .returning) :
    RollFits (s.moveSession .loaded).startRoll := by
  have off := fits.transport.off.2 resting
  have queue := fits.transport.intake.emptied off
  have decode : s.intake.decode = none := by
    have runs := fits.decoding.decode
    rw [queue] at runs
    cases hd : s.intake.decode with
    | none => rfl
    | some d => rw [hd] at runs; exact absurd rfl (runs.1 rfl)
  refine ⟨.rests (.inr (by simp [State.startRoll, State.clearRoll])) (by simp [State.startRoll, State.clearRoll])
    (by simp [State.startRoll, State.clearRoll]) ⟨rfl, rfl, rfl⟩ ?_ ?_, ?_⟩
  · simp [State.startRoll, State.clearRoll, Intake.opened]
  · exact ⟨nofun, by simp [State.startRoll, Intake.opened, queue], fun h => absurd rfl h⟩
  · exact .of_emptied (by simp [State.startRoll, Intake.opened, queue]) (by simp [State.startRoll, Intake.opened, decode])

theorem RollFits.loadRoll {s : State} (fits : RollFits s) (noRoll : s.session.state = .noRoll) (rate : Nat) :
    RollFits (s.loadRoll rate) := by
  have started := fits.startRoll (.inl noRoll)
  have state : (s.moveSession .loaded).startRoll.session.state = .loaded := by simp [State.startRoll, State.clearRoll]
  have idle := started.transport.session.speedIdle (by simp [state]) (by simp [state])
  unfold State.loadRoll
  generalize (s.moveSession .loaded).startRoll = u at *
  dsimp only
  refine ⟨⟨started.transport.off, started.transport.intake, { started.transport.session with
    speedIdle := fun _ _ => ?_
    speedStarting := fun h => nomatch state.symm.trans h
    speedPlaying := fun h => nomatch state.symm.trans h }⟩, started.decoding.congr rfl rfl⟩
  have flags := Speed.eq_inactive_iff.1 idle
  exact Speed.eq_inactive_iff.2 flags

theorem RollFits.removeRoll {s : State} (fits : RollFits s) : RollFits s.removeRoll := by
  have last := fits.transport.intake
  refine ⟨.rests (.inl (by simp [State.removeRoll, State.clearRoll])) (by simp [State.removeRoll, State.clearRoll])
    (by simp [State.removeRoll, State.clearRoll]) ⟨rfl, rfl, rfl⟩ ?_ ?_, .of_emptied rfl rfl⟩
  · simp [State.removeRoll, State.clearRoll, Intake.removed, Intake.stopped]
  · exact ⟨fun _ => rfl, by simp [State.removeRoll, Intake.removed, Intake.stopped, Intake.emptied], fun h => absurd rfl h⟩

theorem RollFits.setTempo {s : State} (fits : RollFits s) (factor : Nat) : RollFits (s.setTempo factor) := by
  have session := fits.transport.session
  unfold State.setTempo
  split
  · exact fits
  · refine ⟨⟨fits.transport.off, fits.transport.intake, { session with
      speedIdle := fun h1 h2 => ?_, speedStarting := fun h => ?_, speedPlaying := fun h => ?_ }⟩, fits.decoding.congr rfl rfl⟩
    · have idle := Speed.eq_inactive_iff.1 (session.speedIdle h1 h2)
      have still : s.speed.tempoChanged s.session.state = s.speed := by
        unfold Speed.tempoChanged
        split
        · exact absurd ‹_› h1
        · exact absurd ‹_› h2
        all_goals rfl
      rw [Speed.eq_inactive_iff, still]
      exact idle
    · have h : s.session.state = .starting := h
      obtain ⟨condition, -, outBandRun⟩ := session.speedStarting h
      rw [h]
      exact ⟨condition, Nat.zero_le _, outBandRun⟩
    · have h : s.session.state = .playing := h
      rw [h]
      exact ⟨(session.speedPlaying h).1, Nat.zero_le _⟩

/-! ## Resets -/

theorem RollFits.restarted {s : State} (session : s.session = Session.initial) (intake : s.intake = Intake.initial)
    (timers : s.stallTimer = none ∧ s.startupTimer = none) (speed : s.speed = Speed.initial) : RollFits s := by
  refine ⟨.rests (.inl (by rw [session]; rfl)) (by rw [session]; rfl) (by rw [session]; rfl)
    ⟨timers.1, timers.2, by rw [speed]; rfl⟩ ?_ ?_, .of_emptied (by rw [intake]; rfl) (by rw [intake]; rfl)⟩
  · rw [intake, session]; simp [Intake.initial, Session.initial]
  · rw [intake]; exact ⟨fun _ => rfl, by simp [Intake.initial], fun h => absurd rfl h⟩

theorem RollFits.faultAtReset {s : State} (fits : RollFits s) : RollFits s.faultAtReset := by
  unfold State.faultAtReset
  split
  · exact fits.faultEffects
  · exact fits

theorem RollFits.coreReset (s : State) : RollFits s.coreReset :=
  RollFits.faultAtReset (.restarted rfl rfl ⟨rfl, rfl⟩ rfl)

theorem RollFits.pinReset (s : State) : RollFits s.pinReset :=
  RollFits.faultAtReset (.restarted rfl rfl ⟨rfl, rfl⟩ rfl)

/-- A running decode that is not due has run for less than 120 µs, or begins now (R12). -/
theorem DecodeFits.microsecond {s : State} (fits : DecodeFits s) (notDue : s.decodeDue = false) : DecodeFits s.microsecond := by
  refine ⟨fits.decode, ?_⟩
  have now : s.decodeElapsed = 0 ∨ s.decodeElapsed < 120 := by
    unfold State.decodeDue at notDue
    split at notDue
    · exact .inl ‹_›
    · split at notDue
      · cases notDue
      · rename_i early
        rw [decodeLimit] at early
        exact .inr (by omega)
  cases running : s.intake.decode with
  | none => rw [State.decodeElapsed_none (s := s.microsecond) running]; omega
  | some d =>
    rw [State.decodeElapsed_some running] at now
    rw [State.decodeElapsed_some (s := s.microsecond) running]
    show elapsed d.begun (s.clock + 1) ≤ 120
    unfold elapsed at *
    bv_omega

theorem RollFits.microsecond {s : State} (fits : RollFits s) (idle : s.dueEvents = []) : RollFits s.microsecond := by
  refine ⟨fits.transport.congr rfl rfl rfl rfl rfl Iff.rfl, fits.decoding.microsecond ?_⟩
  by_contra due
  rw [Bool.not_eq_false] at due
  have mem : Instr.decodeCompletion ∈ s.dueEvents := by simp [State.dueEvents, whenDue, due]
  rw [idle] at mem
  cases mem

theorem chooseEvent_none {n : Nat} {l : List Instr} (h : chooseEvent n l = none) : l = [] := by
  unfold chooseEvent at h
  split at h
  · rfl
  · cases h
  · cases h

/-! ## Commands and steps -/

/-- Every command keeps the transport's half of the invariant and the running decode. -/
theorem RollFits.exec {s t : State} (fits : RollFits s) {i : Instr} (done : exec i s = .next t) : RollFits t := by
  cases i with
  | pinReset => cases done; exact .pinReset s
  | transactionStart l =>
    cases done; exact fits.same (by constructor <;> simp)
  | frameDiscard l f => cases done; exact fits.same (by constructor <;> simp)
  | unknownRequest h code => cases done; exact fits.same (by constructor <;> simp)
  | transportStatus h => cases done; exact fits.request h _ _ fun _ fits => fits
  | performanceStatus h => cases done; exact fits.request h _ _ fun _ fits => fits
  | readEvents h => cases done; exact fits.request h _ _ fun _ fits => fits
  | ackEvents h kinds => cases done; exact fits.request h _ _ fun _ fits => fits.setLink _ _
  | setEventMask h kinds => cases done; exact fits.request h _ _ fun _ fits => fits.setLink _ _
  | scanLine h index left right flags photosites =>
    cases done; exact fits.request h _ _ fun _ fits => fits.takeLine _
  | rollLoaded h rate =>
    cases done
    refine fits.request h _ _ fun u fits => ?_
    split
    · exact fits.loadRoll ‹_› _
    · exact fits
  | rollRemoved h =>
    cases done
    refine fits.request h _ _ fun u fits => ?_
    show RollFits (if u.session.state = .noRoll then u else u.removeRoll)
    split
    · exact fits
    · exact fits.removeRoll
  | rewound h =>
    cases done
    refine fits.request h _ _ fun u fits => ?_
    split
    · exact fits.startRoll (.inr ‹_›)
    · exact fits
  | intakeRestart h => cases done; exact fits.request h _ _ fun _ fits => fits.restartIntake
  | play h =>
    cases done
    refine fits.request h _ _ fun u fits => ?_
    split
    · exact fits
    · exact fits.play ‹_›
  | pause h =>
    cases done
    refine fits.request h _ _ fun u fits => ?_
    split
    iterate 3
      rename_i state
      exact fits.enterPaused (by simp [state]) _
    all_goals exact fits
  | stop h =>
    cases done
    refine fits.request h _ _ fun u fits => ?_
    split
    iterate 5 exact fits.enterReturning _
    all_goals exact fits
  | setTempo h factor => cases done; exact fits.request h _ _ fun _ fits => fits.setTempo _
  | setTranspose h value =>
    cases done; exact fits.request h _ _ fun _ fits => fits.same ⟨rfl, rfl, rfl, rfl, rfl, rfl, rfl⟩
  | setShading h mode weight gain =>
    cases done
    refine fits.request h _ _ fun u fits => ?_
    split
    · exact fits.same (by constructor <;> simp [taken])
    · exact fits
  | setLevers h bass treble =>
    cases done; exact fits.request h _ _ fun _ fits => fits.same ⟨rfl, rfl, rfl, rfl, rfl, rfl, rfl⟩
  | setConsolePedals h damper soft sostenuto =>
    cases done
    refine fits.request h _ _ fun u fits => ?_
    split
    · exact fits.same (by constructor <;> simp [taken])
    · exact fits
  | writeKeyCal h key record =>
    cases done
    refine fits.request h _ _ fun u fits => ?_
    split
    · exact fits.same ⟨rfl, rfl, rfl, rfl, rfl, rfl, rfl⟩
    · exact fits
  | readKeyCal h key =>
    cases done
    refine fits.request h _ _ fun u fits => ?_
    split <;> exact fits
  | writeStepTable h levels =>
    cases done; exact fits.request h _ _ fun _ fits => fits.same ⟨rfl, rfl, rfl, rfl, rfl, rfl, rfl⟩
  | writeChannel h channel rateA rateB =>
    cases done
    refine fits.request h _ _ fun u fits => ?_
    split
    · exact fits.same ⟨rfl, rfl, rfl, rfl, rfl, rfl, rfl⟩
    · exact fits
  | writePedalCurve h selector values => cases done; exact fits.request h _ _ fun _ fits => fits.writeCurve _ _
  | writeSostenutoHoldDuty h values => cases done; exact fits.request h _ _ fun _ fits => fits.writeCurve _ _
  | setTiming h fields =>
    cases done
    refine fits.request h _ _ fun u fits => ?_
    split
    iterate 3 exact fits
    all_goals exact fits.same ⟨rfl, rfl, rfl, rfl, rfl, rfl, rfl⟩
  | driveEnable h value => cases done; exact fits.request h _ _ fun _ fits => fits.driveRequest _
  | driveDisable h => cases done; exact fits.request h _ _ fun _ fits => fits.driveRequest _
  | testStrike h key intensity holdMs =>
    cases done
    refine fits.request h _ _ fun u fits => ?_
    split
    · exact fits.same (by constructor <;> simp [taken])
    · exact fits
  | readKeyState h key =>
    cases done
    refine fits.request h _ _ fun u fits => ?_
    split <;> exact fits
  | readCounters h => cases done; exact fits.request h _ _ fun _ fits => fits
  | resetCore h => cases done; exact fits.request h _ _ fun u _ => .coreReset u
  | faultEdge =>
    cases done
    split
    · exact fits
    · have active : RollFits { s with drive := { s.drive with faultInput := true } } :=
        fits.same ⟨rfl, rfl, rfl, rfl, rfl, rfl, rfl⟩
      exact active.faultEffects
  | faultInputRelease => cases done; exact fits.same ⟨rfl, rfl, rfl, rfl, rfl, rfl, rfl⟩
  | decodeCompletion =>
    cases done
    split
    · exact fits
    · exact fits.completeDecode
  | stallTimerExpiry =>
    cases done
    split
    · exact fits.stallTimerExpiry (ne_none_of_timerExpired ‹_›)
    · exact fits
  | startupTimerExpiry =>
    cases done
    split
    · exact fits.startupTimerExpiry (ne_none_of_timerExpired ‹_›)
    · exact fits
  | expressionTick => cases done; exact fits.same (by constructor <;> split <;> simp)
  | thermalTick => cases done; exact fits.same (by constructor <;> split <;> simp)
  | pwmFrameBoundary => cases done; exact fits.same (by constructor <;> split <;> simp)
  | releaseEntryPerform => cases done; exact fits.performNext _
  | takeoverReleasePerform => cases done; exact fits.performNext _
  | pedalEntryPerform => cases done; exact fits.performNext _
  | endEntryPerform => cases done; exact fits.performNext _
  | strikeStart => cases done; exact fits.same (by constructor <;> simp)
  | strikeEnd k =>
    cases done
    split
    · split
      · exact fits.same (by constructor <;> simp)
      · exact fits
    all_goals exact fits
  | settleEnd k =>
    cases done
    split
    · split
      · exact fits.same (by constructor <;> simp)
      · exact fits
    all_goals exact fits
  | keyRested k =>
    cases done
    split
    · split
      · exact fits.same (by constructor <;> simp)
      · exact fits
    all_goals exact fits
  | pullInEnd =>
    cases done
    split
    · split
      · exact fits.same (by constructor <;> simp)
      · exact fits
    all_goals exact fits
  | selectReleaseAfterPinReset l => cases done; exact fits.same (by constructor <;> split <;> simp)

theorem RollFits.step {s t : State} (fits : RollFits s) (done : step s = .next t) : RollFits t := by
  unfold Machine.step at done
  split at done
  · rename_i c rest waiting
    refine RollFits.exec (s := { s with pending := rest }) ?_ done
    exact fits.same ⟨rfl, rfl, rfl, rfl, rfl, rfl, rfl⟩
  · unfold idleStep at done
    split at done
    · refine RollFits.exec (s := s.drawn) ?_ done
      exact fits.same ⟨rfl, rfl, rfl, rfl, rfl, rfl, rfl⟩
    · rename_i idle
      cases done
      exact fits.microsecond (chooseEvent_none idle)

/-- Settles O57: the transport's half of the invariant is inductive. -/
theorem stepKeepsIntakeAndSession : Obligations.StepKeepsIntakeAndSession := fun _ _ inv done =>
  have fits := inv.roll.step done
  ⟨fits.transport.intakeFits fits.decoding, fits.transport.session⟩

end Sys2Proof.Machine

/-! PROOF. The invariant holds of the state after reset. -/

namespace Sys2Proof.Machine

/-- Settles O54: a pin reset of the reset state is the reset state, and after a pin reset both halves of the invariant hold. -/
theorem resetStateMeetsTheInvariant : Obligations.ResetStateMeetsTheInvariant := by
  have same : State.reset.pinReset = State.reset := rfl
  have player : PlayerFits State.reset := by rw [← same]; exact .pinReset _
  have roll : RollFits State.reset := by rw [← same]; exact .pinReset _
  exact ⟨player.ranges, player.keys, roll.transport.intakeFits roll.decoding, roll.transport.session, player.notes,
    player.drive, player.entries⟩

end Sys2Proof.Machine

/-! PROOF. Steps, the form of a request, transactions and resets (chapter 11). -/

namespace Sys2Proof.Machine

/-! ## Steps -/

/-- Settles O1: the front command is taken out of the queue by the step's own equation. -/
theorem stepTakesFrontCommand : Obligations.StepTakesFrontCommand := fun _ _ _ => rfl

/-- Of events that are due one is chosen. -/
theorem chooseEvent_mem (n : Nat) {l : List Instr} (due : l ≠ []) : ∃ c ∈ l, chooseEvent n l = some c := by
  match l, due with
  | [c], _ => exact ⟨c, List.mem_singleton_self c, rfl⟩
  | c :: d :: rest, _ =>
    refine ⟨_, ?_, rfl⟩
    have inside : Config.eventChoice n % (rest.length + 2) < (c :: d :: rest).length := by
      simp only [List.length_cons]
      exact Nat.mod_lt _ (by omega)
    rw [List.getD_eq_getElem _ _ inside]
    exact List.getElem_mem inside

/-- Settles O2: the choice among due events takes one of them, and none only when none is due. -/
theorem idleStepTakesADueEventOrAMicrosecond : Obligations.IdleStepTakesADueEventOrAMicrosecond := by
  intro s idle
  have own : step s = idleStep s := by unfold Machine.step; rw [idle]
  rw [own]
  unfold idleStep State.ownEvent
  constructor
  · intro none
    rw [none]
    rfl
  · intro due
    obtain ⟨c, mem, chosen⟩ := chooseEvent_mem s.freeCount due
    rw [chosen]
    exact ⟨c, mem, rfl⟩

/-! ## The form of a request -/

/-- A request of Table 11-2 is executed by R177's steps 3 to 5 with its own row's links and length. -/
def RequestForm (i : Instr) (h : Head) : Prop :=
  ∃ (row : RequestRow) (permitted : Link → Bool) (act : State → Taken), requestRow i = some row ∧
    (∀ l, permitted l = true ↔ l ∈ row.links) ∧ ∀ s, exec i s = .next (s.request h permitted row.length act)

theorem onAny_iff (l : Link) : onAny l = true ↔ l ∈ [Link.T, .C, .S] := by cases l <;> simp [onAny]
theorem onT_iff (l : Link) : onT l = true ↔ l ∈ [Link.T] := by simp [onT]
theorem onC_iff (l : Link) : onC l = true ↔ l ∈ [Link.C] := by simp [onC]
theorem onS_iff (l : Link) : onS l = true ↔ l ∈ [Link.S] := by simp [onS]

/-- Every command with a head is a request in this form, or an unknown one. -/
theorem requestForm_of_head {i : Instr} {h : Head} (head : i.head? = some h) :
    RequestForm i h ∨ ∃ code, i = .unknownRequest h code := by
  cases i <;> cases head
  case unknownRequest code => exact .inr ⟨code, rfl⟩
  case transportStatus | performanceStatus | readEvents | ackEvents | setEventMask =>
    exact .inl ⟨_, onAny, _, rfl, onAny_iff, fun _ => rfl⟩
  case scanLine | rollLoaded | rollRemoved | rewound | intakeRestart =>
    exact .inl ⟨_, onT, _, rfl, onT_iff, fun _ => rfl⟩
  case play | pause | stop | setTempo | setTranspose | setShading | setLevers | setConsolePedals =>
    exact .inl ⟨_, onC, _, rfl, onC_iff, fun _ => rfl⟩
  all_goals exact .inl ⟨_, onS, _, rfl, onS_iff, fun _ => rfl⟩

/-! ## Transactions -/

/-- Settles O8: each command with a head, and each of the two others of a release, goes through R181's branch. -/
theorem ignoredSelectTakesNoFrame : Obligations.IgnoredSelectTakesNoFrame := by
  intro l s across
  have ignored : s.ignores l = true := (s.ignores_iff l).2 across
  refine ⟨?request, fun f => ?discard, ?release⟩
  case request =>
    rintro i h head rfl
    obtain ⟨row, permitted, act, -, -, form⟩ | ⟨code, rfl⟩ := requestForm_of_head head
    · rw [form, State.request_ignored permitted row.length act across]
    · cases head
      show Host.Outcome.next (s.answerUnknown h) = _
      rw [State.answerUnknown, if_pos ignored]
      rfl
  case discard =>
    show Host.Outcome.next (s.discardFrame l f) = _
    rw [State.discardFrame, if_pos ignored]
    rfl
  case release =>
    show Host.Outcome.next (if s.ignores l then s.releaseIgnored l else s) = _
    rw [if_pos ignored]
    rfl

/-- Settles O9: step 2 by the unknown request's own arm, steps 3 and 4 by the form that every row's request has. -/
theorem framingRefusalsChangeOnlyTheSlot : Obligations.FramingRefusalsChangeOnlyTheSlot := by
  refine ⟨fun h code s heard => ?_, fun i h row s head rowOf heard => ?_⟩
  · refine OnlyAnswers.of_answer ?_
    show Host.Outcome.next (s.answerUnknown h) = _
    rw [State.answerUnknown, State.ignores_of_hears heard]
    rfl
  · obtain ⟨row', permitted, act, rowOf', links, form⟩ | ⟨code, rfl⟩ := requestForm_of_head head
    · obtain rfl : row' = row := Option.some.inj (rowOf'.symm.trans rowOf)
      have refused (status : Status) (framing : framingRefusal h permitted row'.length = some status) :
          OnlyAnswers i h (refusal h status) s :=
        .of_answer (by rw [form, State.request_refused act heard framing])
      refine ⟨fun forbidden => refused _ ?_, fun allowed otherLength => refused _ ?_⟩
      · have closed : permitted h.link = false := by
          rw [← Bool.not_eq_true, links]; exact forbidden
        simp [framingRefusal, closed]
      · simp [framingRefusal, (links h.link).2 allowed, otherLength]
    · cases rowOf

/-- What the discard of a heard frame does: the transaction ends and the discard counts (R179). -/
theorem exec_frameDiscard {l : Link} {s : State} (f : Frame) (heard : s.hears l) :
    exec (.frameDiscard l f) s = .next (s.setLink l { s.link l with
      transaction := .idle
      lastOut := clockedOut (s.link l).fixedReply f.bytes.length f.extraBits
      discards := satAdd (s.link l).discards 1 }) := by
  show Host.Outcome.next (s.discardFrame l f) = _
  rw [State.discardFrame, State.ignores_of_hears heard]
  simp [State.endTransaction]

/-- Settles O7. -/
theorem discardCountsOnItsLinkOnly : Obligations.DiscardCountsOnItsLinkOnly := by
  intro l f s heard
  refine ⟨_, exec_frameDiscard f heard, fun m => ?_, fun m => ?_, by simp, fun m other => s.link_setLink_other _ other,
    s.setLink_others l _⟩
  · rw [State.link_setLink]
    split
    · exact satAdd_eq_bump _ _
    · rfl
  · rw [State.link_setLink]
    split
    · rename_i same; subst same; exact ⟨rfl, rfl, rfl⟩
    · exact ⟨rfl, rfl, rfl⟩

theorem exec_transactionStart {l : Link} {s : State} (idle : (s.link l).transaction = .idle) :
    exec (.transactionStart l) s = .next (s.setLink l { s.link l with transaction := .inProgress (s.link l).slot.bytes }) := by
  show Host.Outcome.next (s.startTransaction l) = _
  simp [State.startTransaction, idle]

/-! ## Resets -/

/-- RESET_CORE's cleared state, before an active fault input is latched (R190, steps 1 and 2). -/
def State.coreCleared (s : State) : State :=
  { State.reset with
    clock := s.clock
    linkT := s.linkT.coreReset
    linkC := s.linkC.coreReset
    linkS := s.linkS.coreReset
    shaping := s.shaping.coreReset
    expressionDeadline := after s.clock s.timing.expressionTick
    calibration := s.calibration
    timing := s.timing
    keys := Vector.replicate 88 (KeyRecord.atReset s.clock)
    drive := { s.drive with actEn := false, faultLatch := false }
    frameDeadline := s.frameDeadline
    thermalDeadline := after s.clock thermalPeriod
    freeCount := s.freeCount
    pending := s.pending }

theorem State.coreReset_eq (s : State) : s.coreReset = s.coreCleared.faultAtReset := rfl

/-- PIN_RESET's cleared state, before an active fault input is latched (R189). -/
def State.pinCleared (s : State) : State :=
  { State.reset with
    linkT := s.linkT.pinReset
    linkC := s.linkC.pinReset
    linkS := s.linkS.pinReset
    drive := { Drive.initial with faultInput := s.drive.faultInput }
    freeCount := s.freeCount
    pending := s.pending }

theorem State.pinReset_eq (s : State) : s.pinReset = s.pinCleared.faultAtReset := rfl

/-- The blocks of a cleared state that a fault found at a reset reads and leaves. -/
structure Cleared (v : State) : Prop where
  blocks : BlocksAtReset v
  drive : v.drive.actEn = false ∧ v.drive.faultLatch = false

/-- A fault found at a reset is latched and raised, and nothing else changes (R168, R190 step 3). -/
theorem Cleared.faultAtReset {v : State} (cleared : Cleared v) :
    Raises v v.faultAtReset (if v.drive.faultInput then 0x80#8 else 0#8) ∧
      v.faultAtReset.drive = { v.drive with faultLatch := v.drive.faultInput } ∧
      { v.faultAtReset with linkT := v.linkT, linkC := v.linkC, linkS := v.linkS, drive := v.drive } = v := by
  have blocks := cleared.blocks
  rw [State.faultAtReset_quiet v (by rw [blocks.session]) blocks.queue.1 blocks.queue.2.2
    (fun k => ⟨false, by rw [blocks.keys]⟩) (by rw [blocks.pedals]) cleared.drive.1]
  cases fault : v.drive.faultInput with
  | true => exact ⟨(Raises.refl v).raise .fault, rfl, rfl⟩
  | false =>
    refine ⟨Raises.refl v, ?_, rfl⟩
    show v.drive = { v.drive with faultLatch := false }
    rw [← cleared.drive.2]

theorem Cleared.settings {v : State} (cleared : Cleared v) :
    v.faultAtReset.clock = v.clock ∧ v.faultAtReset.frameDeadline = v.frameDeadline ∧
      v.faultAtReset.thermalDeadline = v.thermalDeadline ∧ v.faultAtReset.expressionDeadline = v.expressionDeadline ∧
      v.faultAtReset.calibration = v.calibration ∧ v.faultAtReset.timing = v.timing ∧ v.faultAtReset.pending = v.pending ∧
      v.faultAtReset.shaping = v.shaping := by
  obtain ⟨-, -, same⟩ := cleared.faultAtReset
  have shaping := congrArg State.shaping same
  simpa using shaping

theorem BlocksAtReset.congr {s t : State} (h : BlocksAtReset s)
    (same : { t with linkT := s.linkT, linkC := s.linkC, linkS := s.linkS, drive := s.drive } = s) : BlocksAtReset t := by
  rw [← same] at h
  exact { h with }

/-- A whole frame's transaction clocks out the fixed reply and then zeros (R176). -/
theorem clockedOut_whole (reply : List Byte) (n : Nat) :
    clockedOut reply n 0 = (reply ++ List.replicate n 0#8).take n := by
  simp only [clockedOut, if_true, List.take_append, List.take_replicate]
  congr 2
  omega

theorem LinkPort.coreReset_eq (p : LinkPort) : p.coreReset = ⟨⟨.ok, 0#8, []⟩, 0#8, 0#8, 0#32, p.transaction, p.lastOut⟩ := rfl

theorem State.link_coreCleared (s : State) (l : Link) : s.coreCleared.link l = (s.link l).coreReset := by cases l <;> rfl

theorem State.link_pinCleared (s : State) (l : Link) : s.pinCleared.link l = (s.link l).pinReset := by cases l <;> rfl

theorem State.coreCleared_cleared (s : State) : Cleared s.coreCleared :=
  ⟨{ session := rfl, intake := rfl, tracker := rfl, detectors := fun k => by simp [State.coreCleared, State.reset, detectorsClosed]
     speed := rfl, timers := ⟨rfl, rfl⟩, struckKeys := fun n => by simp [State.coreCleared, State.reset], console := rfl
     queue := ⟨rfl, rfl, rfl⟩, keys := State.key_replicate rfl, strikes := rfl, pedals := rfl }, rfl, rfl⟩

theorem State.pinCleared_cleared (s : State) : Cleared s.pinCleared :=
  ⟨{ session := rfl, intake := rfl, tracker := rfl, detectors := fun k => by simp [State.pinCleared, State.reset, detectorsClosed]
     speed := rfl, timers := ⟨rfl, rfl⟩, struckKeys := fun n => by simp [State.pinCleared, State.reset], console := rfl
     queue := ⟨rfl, rfl, rfl⟩, keys := State.key_replicate rfl, strikes := rfl, pedals := rfl }, rfl, rfl⟩

theorem exec_resetCore {h : Head} {s : State} (takes : s.takes h [.S] 0) :
    exec (.resetCore h) s = .next ((s.heard h).coreReset.answer h.link (okReply h)) :=
  exec_request_answered takes (onS_of_mem takes.2.1) rfl rfl

/-- The links after a core reset: only a transaction and the record of its bytes outlive it. -/
theorem State.link_coreReset (s : State) (l : Link) :
    s.coreReset.link l = { (s.link l).coreReset with latch := if s.drive.faultInput then 0x80#8 else 0#8 } := by
  have raised := s.coreCleared_cleared.faultAtReset.1 l
  have input : s.coreCleared.drive.faultInput = s.drive.faultInput := rfl
  rw [s.link_coreCleared, input] at raised
  rw [s.coreReset_eq, raised]
  simp [LinkPort.coreReset, LinkPort.initial]

/-- Settles O43: the cleared state is written down by the model, and a fault found at the reset changes latches and drive alone. -/
theorem coreResetKeepsCalibrationAndClock : Obligations.CoreResetKeepsCalibrationAndClock := by
  intro h s takes
  obtain ⟨link, tag, declared⟩ := h
  obtain rfl : link = .S := by simpa using takes.2.1
  have cleared := (s.heard ⟨.S, tag, declared⟩).coreCleared_cleared
  obtain ⟨-, drive, same⟩ := cleared.faultAtReset
  obtain ⟨clock, frame, thermal, expression, calibration, timing, pending, shaping⟩ := cleared.settings
  have blocks := cleared.blocks.congr same
  have links := (s.heard ⟨.S, tag, declared⟩).link_coreReset
  rw [← State.coreReset_eq] at *
  have answered := BlocksAtReset.congr (t := (s.heard ⟨.S, tag, declared⟩).coreReset.answer .S (okReply ⟨.S, tag, declared⟩)) blocks rfl
  refine ⟨_, exec_resetCore takes, fun l => ?_, clock, frame, thermal, expression, calibration, timing, pending, drive, shaping,
    answered⟩
  have input : (s.heard ⟨.S, tag, declared⟩).drive.faultInput = s.drive.faultInput := rfl
  rw [State.answer, State.link_setLink]
  split
  · rename_i onS
    subst onS
    rw [links, input, State.link_heard]
    simp [LinkPort.coreReset, LinkPort.initial]
  · rename_i other
    rw [links, input, State.link_heard]
    simp [LinkPort.coreReset, LinkPort.initial, Reply.initial, other]

/-- Settles O44: as O43, from the pin reset's cleared state. -/
theorem pinResetRestoresTheDefaults : Obligations.PinResetRestoresTheDefaults := by
  intro s
  have cleared := s.pinCleared_cleared
  obtain ⟨raised, drive, same⟩ := cleared.faultAtReset
  obtain ⟨clock, frame, thermal, expression, calibration, timing, pending, shaping⟩ := cleared.settings
  have blocks := cleared.blocks.congr same
  rw [← State.pinReset_eq] at *
  refine ⟨s.pinReset, rfl, fun l => ?_, clock, frame, thermal, expression, pending, drive, timing, fun k => ?_,
    by rw [calibration]; rfl, by rw [calibration]; rfl, by rw [calibration]; rfl, shaping, blocks⟩
  · have input : s.pinCleared.drive.faultInput = s.drive.faultInput := rfl
    rw [raised l, s.link_pinCleared, input]
    simp [LinkPort.pinReset, LinkPort.initial, Reply.initial]
  · simp [State.keyCal, calibration, State.pinCleared, State.reset, Calibration.initial, KeyCal.default]

/-- Settles O6: the assertion fixes the slot's bytes, which a core reset leaves in the transaction of another link. -/
theorem replyIsFixedAtTheAssertion : Obligations.ReplyIsFixedAtTheAssertion := by
  refine ⟨fun l s idle => exec_transactionStart idle, fun l h f s other takes idle whole => ?_⟩
  obtain ⟨heard, onS, length⟩ := takes
  have apart : h.link ≠ l := by
    rw [List.mem_singleton] at onS
    exact onS ▸ other.symm
  have asserted (m : Link) := s.link_setLink l m { s.link l with transaction := .inProgress (s.link l).slot.bytes }
  have started := exec_transactionStart idle
  generalize s.setLink l { s.link l with transaction := .inProgress (s.link l).slot.bytes } = s1 at *
  have takes : s1.takes h [.S] 0 := by
    refine ⟨?_, onS, length⟩
    unfold State.hears
    rw [asserted, if_neg apart]
    exact heard
  have fixed : (((s1.heard h).coreReset.answer h.link (okReply h)).link l).transaction = .inProgress (s.link l).slot.bytes := by
    rw [State.answer, State.link_setLink_other _ _ apart.symm, State.link_coreReset, State.link_heard, if_neg apart.symm,
      asserted, if_pos rfl]
    rfl
  generalize hs2 : (s1.heard h).coreReset.answer h.link (okReply h) = s2 at *
  refine ⟨s1, s2, _, started, hs2 ▸ exec_resetCore takes, exec_frameDiscard f ?_, ?_⟩
  · unfold State.hears; rw [fixed]; nofun
  · rw [State.link_setLink_same]
    simp only [LinkPort.fixedReply, fixed, whole]
    exact clockedOut_whole _ _

end Sys2Proof.Machine

/-! PROOF. What every command keeps, and which command a frame spells (chapter 11). -/

namespace Sys2Proof.Machine

/-! ## Completion -/

/-- The score clock and the commands that wait. -/
def KeepsTime (s u : State) : Prop := u.pending = s.pending ∧ u.clock = s.clock

theorem KeepsTime.request {s u : State} (kept : KeepsTime s u) (h : Head) (permitted : Link → Bool) (length : Nat)
    {act : State → Taken} (acts : ∀ v, KeepsTime v (act v).1) : KeepsTime s (u.request h permitted length act) :=
  State.request_keeps (P := KeepsTime s) (fun v l p kept => ⟨by simpa using kept.1, by simpa using kept.2⟩) kept h permitted length
    fun v kept => ⟨(acts v).1.trans kept.1, (acts v).2.trans kept.2⟩

theorem State.writeCurve_keepsTime (s : State) (selector : BitVec 8) (values : Vector (BitVec 16) 5) :
    KeepsTime s (s.writeCurve selector values).1 := by
  unfold State.writeCurve
  (repeat' split) <;> exact ⟨rfl, rfl⟩

theorem State.driveRequest_keepsTime (s : State) (value : BitVec 8) : KeepsTime s (s.driveRequest value).1 := by
  unfold State.driveRequest taken
  (repeat' split) <;> simp [KeepsTime, refusedWith]

theorem exec_keepsTime (c : Instr) (s : State) (running : c ≠ .pinReset) : ∃ t, exec c s = .next t ∧ KeepsTime s t := by
  have refl : KeepsTime s s := ⟨rfl, rfl⟩
  cases c with
  | pinReset => exact absurd rfl running
  | transportStatus h => exact ⟨_, rfl, refl.request h _ _ fun _ => ⟨rfl, rfl⟩⟩
  | performanceStatus h => exact ⟨_, rfl, refl.request h _ _ fun _ => ⟨rfl, rfl⟩⟩
  | readEvents h => exact ⟨_, rfl, refl.request h _ _ fun _ => ⟨rfl, rfl⟩⟩
  | ackEvents h kinds => exact ⟨_, rfl, refl.request h _ _ fun _ => by simp [KeepsTime, taken]⟩
  | setEventMask h kinds => exact ⟨_, rfl, refl.request h _ _ fun _ => by simp [KeepsTime, taken]⟩
  | scanLine h index left right flags photosites => exact ⟨_, rfl, refl.request h _ _ fun _ => by simp [KeepsTime]⟩
  | rollLoaded h rate => exact ⟨_, rfl, refl.request h _ _ fun _ => by split <;> simp [KeepsTime, taken, refusedWith]⟩
  | rollRemoved h => exact ⟨_, rfl, refl.request h _ _ fun _ => by dsimp only [taken]; split <;> simp [KeepsTime]⟩
  | rewound h => exact ⟨_, rfl, refl.request h _ _ fun _ => by split <;> simp [KeepsTime, taken, refusedWith]⟩
  | intakeRestart h => exact ⟨_, rfl, refl.request h _ _ fun _ => by simp [KeepsTime, taken]⟩
  | play h => exact ⟨_, rfl, refl.request h _ _ fun _ => by split <;> simp [KeepsTime, taken, refusedWith]⟩
  | pause h => exact ⟨_, rfl, refl.request h _ _ fun _ => by split <;> simp [KeepsTime, taken, refusedWith]⟩
  | stop h => exact ⟨_, rfl, refl.request h _ _ fun _ => by split <;> simp [KeepsTime, taken, refusedWith]⟩
  | setTempo h factor => exact ⟨_, rfl, refl.request h _ _ fun _ => by simp [KeepsTime, taken]⟩
  | setTranspose h value => exact ⟨_, rfl, refl.request h _ _ fun _ => by simp [KeepsTime, taken]⟩
  | setShading h mode weight gain => exact ⟨_, rfl, refl.request h _ _ fun _ => by split <;> simp [KeepsTime, taken, refusedWith]⟩
  | setLevers h bass treble => exact ⟨_, rfl, refl.request h _ _ fun _ => by simp [KeepsTime, taken]⟩
  | setConsolePedals h damper soft sostenuto =>
    exact ⟨_, rfl, refl.request h _ _ fun _ => by split <;> simp [KeepsTime, taken, refusedWith]⟩
  | writeKeyCal h key record => exact ⟨_, rfl, refl.request h _ _ fun _ => by split <;> simp [KeepsTime, taken, refusedWith]⟩
  | readKeyCal h key => exact ⟨_, rfl, refl.request h _ _ fun _ => by split <;> simp [KeepsTime, takenWith, refusedWith]⟩
  | writeStepTable h levels => exact ⟨_, rfl, refl.request h _ _ fun _ => by simp [KeepsTime, taken]⟩
  | writeChannel h channel rateA rateB =>
    exact ⟨_, rfl, refl.request h _ _ fun _ => by split <;> simp [KeepsTime, taken, refusedWith]⟩
  | writePedalCurve h selector values => exact ⟨_, rfl, refl.request h _ _ fun _ => State.writeCurve_keepsTime _ _ _⟩
  | writeSostenutoHoldDuty h values => exact ⟨_, rfl, refl.request h _ _ fun _ => State.writeCurve_keepsTime _ _ _⟩
  | setTiming h fields => exact ⟨_, rfl, refl.request h _ _ fun _ => by split <;> simp [KeepsTime, taken, refusedWith]⟩
  | driveEnable h value => exact ⟨_, rfl, refl.request h _ _ fun _ => State.driveRequest_keepsTime _ _⟩
  | driveDisable h => exact ⟨_, rfl, refl.request h _ _ fun _ => State.driveRequest_keepsTime _ _⟩
  | testStrike h key intensity holdMs =>
    exact ⟨_, rfl, refl.request h _ _ fun _ => by split <;> simp [KeepsTime, taken, refusedWith]⟩
  | readKeyState h key => exact ⟨_, rfl, refl.request h _ _ fun _ => by split <;> simp [KeepsTime, takenWith, refusedWith]⟩
  | readCounters h => exact ⟨_, rfl, refl.request h _ _ fun _ => ⟨rfl, rfl⟩⟩
  | resetCore h =>
    refine ⟨_, rfl, refl.request h _ _ fun v => ?_⟩
    obtain ⟨clock, -, -, -, -, -, pending, -⟩ := v.coreCleared_cleared.settings
    exact ⟨pending, clock⟩
  | transactionStart l => exact ⟨_, rfl, by simp [KeepsTime]⟩
  | frameDiscard l f => exact ⟨_, rfl, by simp [KeepsTime]⟩
  | unknownRequest h code => exact ⟨_, rfl, by simp [KeepsTime]⟩
  | strikeEnd k =>
    refine ⟨_, rfl, ?_⟩
    split
    · split <;> simp [KeepsTime]
    all_goals exact refl
  | settleEnd k =>
    refine ⟨_, rfl, ?_⟩
    split
    · split <;> simp [KeepsTime]
    all_goals exact refl
  | keyRested k =>
    refine ⟨_, rfl, ?_⟩
    split
    · split <;> simp [KeepsTime]
    all_goals exact refl
  | pullInEnd =>
    refine ⟨_, rfl, ?_⟩
    split
    · split <;> simp [KeepsTime]
    all_goals exact refl
  | faultEdge | decodeCompletion | stallTimerExpiry | startupTimerExpiry | expressionTick | thermalTick | pwmFrameBoundary =>
    refine ⟨_, rfl, ?_⟩
    split <;> simp [KeepsTime]
  | selectReleaseAfterPinReset l =>
    refine ⟨_, rfl, ?_⟩
    split <;> simp [KeepsTime]
  | faultInputRelease => exact ⟨_, rfl, rfl, rfl⟩
  | releaseEntryPerform | takeoverReleasePerform | pedalEntryPerform | endEntryPerform | strikeStart =>
    exact ⟨_, rfl, by simp [KeepsTime]⟩

/-- Settles O3: every command but pin reset keeps clock and queue, request by request through what its act keeps. -/
theorem everyCommandCompletesInNoTime : Obligations.EveryCommandCompletesInNoTime := by
  intro c s
  by_cases reset : c = .pinReset
  · subst reset
    obtain ⟨clock, -, -, -, -, -, pending, -⟩ := s.pinCleared_cleared.settings
    exact ⟨s.pinReset, rfl, pending, clock⟩
  · obtain ⟨t, done, pending, clock⟩ := exec_keepsTime c s reset
    exact ⟨t, done, pending, by rw [if_neg reset, clock]⟩

/-! ## Frames -/

/-- A counted frame is code, tag, declared length and a payload of the declared length, at most 64 bytes (R177, step 1). -/
theorem Frame.counted_iff (f : Frame) : f.counted = true ↔
    f.extraBits = 0 ∧ ∃ code tag declared payload, f.bytes = code :: tag :: declared :: payload ∧
      payload.length = declared.toNat ∧ declared.toNat ≤ 64 := by
  obtain ⟨bytes, extra⟩ := f
  unfold Frame.counted
  simp only [Bool.and_eq_true, beq_iff_eq, decide_eq_true_eq]
  constructor
  · rintro ⟨⟨⟨whole, least⟩, most⟩, length⟩
    match bytes, least with
    | code :: tag :: declared :: payload, _ =>
      simp only [List.length_cons, List.getD_cons_succ, List.getD_cons_zero] at length most
      exact ⟨whole, code, tag, declared, payload, rfl, by omega, by omega⟩
  · rintro ⟨whole, code, tag, declared, payload, rfl, length, most⟩
    simp only [List.length_cons, List.getD_cons_succ, List.getD_cons_zero]
    exact ⟨⟨⟨whole, by omega⟩, by omega⟩, by omega⟩

theorem decodeRequest_head (code : Byte) (h : Head) (p : List Byte) : (decodeRequest code h p).head? = some h := by
  unfold decodeRequest
  (repeat' split) <;> rfl

theorem decodeFrame_counted {l : Link} {code tag declared : Byte} {payload : List Byte}
    (length : payload.length = declared.toNat) (most : declared.toNat ≤ 64) :
    decodeFrame l ⟨code :: tag :: declared :: payload, 0⟩ = decodeRequest code ⟨l, tag, declared⟩ payload := by
  unfold decodeFrame
  rw [if_pos ((Frame.counted_iff _).2 ⟨rfl, code, tag, declared, payload, rfl, length, most⟩)]

theorem row_of_code {code : Byte} {n : Nat} (value : code.toNat = n)
    (listed : (requestTable.map fun row => row.code.toNat).contains n = true) : ∃ row ∈ requestTable, row.code = code := by
  rw [List.contains_iff_mem, List.mem_map] at listed
  obtain ⟨row, mem, same⟩ := listed
  exact ⟨row, mem, BitVec.eq_of_toNat_eq (same.trans value.symm)⟩

/-- A code of Table 11-2 spells a request of its row, another one an unknown request (R177, step 2). -/
theorem decodeRequest_unknown_iff (code : Byte) (h : Head) (p : List Byte) :
    decodeRequest code h p = .unknownRequest h code ↔ ∀ row ∈ requestTable, row.code ≠ code := by
  constructor
  · intro unknown row mem same
    subst same
    simp only [requestTable, List.cons_append, List.nil_append, List.mem_cons, List.not_mem_nil, or_false] at mem
    rcases mem with rfl | rfl | rfl | rfl | rfl | rfl | rfl | rfl | rfl | rfl | rfl | rfl | rfl | rfl | rfl | rfl | rfl | rfl |
      rfl | rfl | rfl | rfl | rfl | rfl | rfl | rfl | rfl | rfl | rfl
    all_goals
      simp only [decodeRequest, BitVec.toNat_ofNat, Nat.reducePow, Nat.reduceMod] at unknown
      (repeat' split at unknown) <;> cases unknown
  · intro unlisted
    have never {n : Nat} (value : code.toNat = n)
        (listed : (requestTable.map fun row => row.code.toNat).contains n = true) : False := by
      obtain ⟨row, mem, same⟩ := row_of_code value listed
      exact unlisted row mem same
    unfold decodeRequest
    split
    iterate 29 exact (never ‹_› (by decide)).elim
    rfl

/-- Settles O5: the count is R177's, and what a counted frame spells has its head, so that it is no discard. -/
theorem framesDiscardedOrUnknown : Obligations.FramesDiscardedOrUnknown := by
  refine ⟨fun l f => ?_, fun l code tag declared payload length most => ?_⟩
  · rw [← Frame.counted_iff]
    constructor
    · rintro discarded counted
      obtain ⟨whole, code, tag, declared, payload, bytes, length, most⟩ := (Frame.counted_iff f).1 counted
      obtain rfl : f = ⟨code :: tag :: declared :: payload, 0⟩ := by cases f; simp_all
      rw [decodeFrame_counted length most] at discarded
      have head := decodeRequest_head code ⟨l, tag, declared⟩ payload
      rw [discarded] at head
      cases head
    · intro uncounted
      unfold decodeFrame
      rw [if_neg uncounted]
  · rw [decodeFrame_counted length most]
    exact decodeRequest_unknown_iff _ _ _

end Sys2Proof.Machine

/-! PROOF. The round trip of a request: its payload reads back field by field (section 11.2.2). -/

namespace Sys2Proof.Machine

/-! ## The round trip of a request -/

/-- A key calibration record reads back from its bytes (section 11.2.2). -/
theorem keyCalFields_payload (h : Head) (key : BitVec 8) (r : KeyCalFields) :
    keyCalFields (requestPayload (.writeKeyCal h key r)) = r := by
  obtain ⟨touchFloor, width, flight, holdDuty, settle⟩ := r
  simp only [requestPayload, keyCalFields, List.append_assoc]
  congr 1
  · exact field8_byte [key] _ touchFloor 1 rfl
  · exact fields16_bytes16 [key, touchFloor] _ width 2 rfl
  · have := fields16_bytes16 ([key, touchFloor] ++ bytes16 width.toList) (bytes16 [holdDuty] ++ leBytes 4 settle.toNat) flight 20
      (by simp)
    simpa using this
  · have := field16_value ([key, touchFloor] ++ bytes16 width.toList ++ bytes16 flight.toList) (leBytes 4 settle.toNat) holdDuty 38
      (by simp)
    simpa [bytes16] using this
  · have := field32_value ([key, touchFloor] ++ bytes16 width.toList ++ bytes16 flight.toList ++ bytes16 [holdDuty]) [] settle 40
      (by simp)
    simpa using this

theorem bytes16_singleton (v : BitVec 16) : bytes16 [v] = leBytes 2 v.toNat := by simp [bytes16]

theorem timingFields_payload (h : Head) (t : TimingFields) : timingFields (requestPayload (.setTiming h t)) = t := by
  obtain ⟨lookAhead, releaseLead, pedalLead, split, accentBoost, repeatGap, stallTimeout, speedTolerance, expressionTick⟩ := t
  simp only [requestPayload, timingFields, bytes16_singleton, List.append_assoc]
  congr 1
  · exact field32_value [] _ lookAhead 0 rfl
  · exact field32_value (leBytes 4 lookAhead.toNat) _ releaseLead 4 rfl
  · simpa using field32_value (leBytes 4 lookAhead.toNat ++ leBytes 4 releaseLead.toNat) _ pedalLead 8 rfl
  · exact field8_byte (leBytes 4 lookAhead.toNat ++ leBytes 4 releaseLead.toNat ++ leBytes 4 pedalLead.toNat) _ split 12 (by simp)
  · simpa using field8_byte (leBytes 4 lookAhead.toNat ++ leBytes 4 releaseLead.toNat ++ leBytes 4 pedalLead.toNat ++ [split])
      (leBytes 2 repeatGap.toNat ++ (leBytes 4 stallTimeout.toNat ++ speedTolerance :: leBytes 2 expressionTick.toNat))
      accentBoost 13 (by simp)
  · have := field16_value (leBytes 4 lookAhead.toNat ++ leBytes 4 releaseLead.toNat ++ leBytes 4 pedalLead.toNat ++
      [split, accentBoost]) (leBytes 4 stallTimeout.toNat ++ speedTolerance :: leBytes 2 expressionTick.toNat) repeatGap 14 (by simp)
    simpa using this
  · have := field32_value (leBytes 4 lookAhead.toNat ++ leBytes 4 releaseLead.toNat ++ leBytes 4 pedalLead.toNat ++
      [split, accentBoost] ++ leBytes 2 repeatGap.toNat) (speedTolerance :: leBytes 2 expressionTick.toNat) stallTimeout 16 (by simp)
    simpa using this
  · have := field8_byte (leBytes 4 lookAhead.toNat ++ leBytes 4 releaseLead.toNat ++ leBytes 4 pedalLead.toNat ++
      [split, accentBoost] ++ leBytes 2 repeatGap.toNat ++ leBytes 4 stallTimeout.toNat) (leBytes 2 expressionTick.toNat)
      speedTolerance 20 (by simp)
    simpa using this
  · have := field16_value (leBytes 4 lookAhead.toNat ++ leBytes 4 releaseLead.toNat ++ leBytes 4 pedalLead.toNat ++
      [split, accentBoost] ++ leBytes 2 repeatGap.toNat ++ leBytes 4 stallTimeout.toNat ++ [speedTolerance]) [] expressionTick 21
      (by simp)
    simpa using this

theorem scanLine_fields (h : Head) (index left right : BitVec 16) (flags : BitVec 8) (photosites : BitVec 256) :
    field16 (requestPayload (.scanLine h index left right flags photosites)) 0 = index ∧
      field16 (requestPayload (.scanLine h index left right flags photosites)) 2 = left ∧
      field16 (requestPayload (.scanLine h index left right flags photosites)) 4 = right ∧
      field8 (requestPayload (.scanLine h index left right flags photosites)) 6 = flags ∧
      BitVec.ofNat 256 (field (requestPayload (.scanLine h index left right flags photosites)) 7 32) = photosites := by
  simp only [requestPayload, List.append_assoc]
  have edges (j : Nat) (hj : j < 3) := field16_bytes16 [] ([flags] ++ leBytes 32 photosites.toNat) [index, left, right] 0 j rfl hj
  refine ⟨edges 0 (by omega), edges 1 (by omega), edges 2 (by omega), ?_, ?_⟩
  · exact field8_byte (bytes16 [index, left, right]) _ flags 6 (by simp)
  · have value := field_leBytes (bytes16 [index, left, right] ++ [flags]) [] 7 32 photosites.toNat (by simp)
    simp only [List.append_assoc, List.append_nil] at value
    rw [value]
    apply BitVec.eq_of_toNat_eq
    rw [BitVec.toNat_ofNat]
    have range := photosites.isLt
    rw [show (256 : Nat) ^ 32 = 2 ^ 256 by norm_num]
    omega

theorem decodeRequest_payload {i : Instr} {h : Head} {code : Byte} (head : i.head? = some h) (fits : i.operandsFit = true)
    (known : requestCode i = some code) : decodeRequest code h (requestPayload i) = i := by
  cases i <;> cases head <;> cases known
  case transportStatus | performanceStatus | readEvents | rollRemoved | rewound | intakeRestart | play | pause | stop |
    readCounters | resetCore => rfl
  case ackEvents kinds => exact congrArg _ (field8_byte [] [] kinds 0 rfl)
  case setEventMask kinds => exact congrArg _ (field8_byte [] [] kinds 0 rfl)
  case scanLine index left right flags photosites =>
    obtain ⟨first, second, third, fourth, fifth⟩ := scanLine_fields h index left right flags photosites
    generalize requestPayload (.scanLine h index left right flags photosites) = p at *
    show Instr.scanLine h (field16 p 0) (field16 p 2) (field16 p 4) (field8 p 6) (BitVec.ofNat 256 (field p 7 32)) = _
    rw [first, second, third, fourth, fifth]
  case rollLoaded rate => exact congrArg _ (field16_value [] [] rate 0 rfl)
  case setTempo factor => exact congrArg _ (field16_value [] [] factor 0 rfl)
  case setTranspose value => exact congrArg _ (field8_byte [] [] value 0 rfl)
  case setShading mode weight gain =>
    show Instr.setShading h _ _ _ = _
    congr 1
    · exact field8_byte [] _ mode 0 rfl
    · exact field16_value [mode] _ weight 1 rfl
    · exact field16_value (mode :: leBytes 2 weight.toNat) [] gain 3 rfl
  case setLevers bass treble =>
    show Instr.setLevers h _ _ = _
    congr 1
    · exact field16_value [] _ bass 0 rfl
    · exact field16_value (leBytes 2 bass.toNat) [] treble 2 rfl
  case setConsolePedals damper soft sostenuto =>
    show Instr.setConsolePedals h _ _ _ = _
    congr 1
    · exact field8_byte [] _ damper 0 rfl
    · exact field8_byte [damper] _ soft 1 rfl
    · exact field8_byte [damper, soft] _ sostenuto 2 rfl
  case writeKeyCal key record =>
    show Instr.writeKeyCal h _ _ = _
    rw [keyCalFields_payload]
    exact congrArg (Instr.writeKeyCal h · record) (field8_byte [] _ key 0 rfl)
  case readKeyCal key => exact congrArg _ (field8_byte [] [] key 0 rfl)
  case writeStepTable levels =>
    have := fields16_bytes16 [] [] levels 0 rfl
    rw [List.nil_append, List.append_nil] at this
    exact congrArg _ this
  case writeChannel channel rateA rateB =>
    show Instr.writeChannel h _ _ _ = _
    congr 1
    · exact field8_byte [] _ channel 0 rfl
    · exact field16_value [channel] _ rateA 1 rfl
    · exact field16_value (channel :: leBytes 2 rateA.toNat) [] rateB 3 rfl
  case writePedalCurve selector values =>
    have first : field8 (requestPayload (.writePedalCurve h selector values)) 0 = selector := field8_byte [] _ selector 0 rfl
    have rest : fields16 (requestPayload (.writePedalCurve h selector values)) 1 5 = values := by
      simpa [requestPayload] using fields16_bytes16 [selector] [] values 1 rfl
    generalize requestPayload (.writePedalCurve h selector values) = p at *
    show (if field8 p 0 = 2#8 then _ else Instr.writePedalCurve h (field8 p 0) (fields16 p 1 5)) = _
    rw [first, rest, if_neg (by simpa [Instr.operandsFit] using fits)]
  case writeSostenutoHoldDuty values =>
    have first : field8 (requestPayload (.writeSostenutoHoldDuty h values)) 0 = 2#8 := field8_byte [] _ 2#8 0 rfl
    have rest : fields16 (requestPayload (.writeSostenutoHoldDuty h values)) 1 5 = values := by
      simpa [requestPayload] using fields16_bytes16 [2#8] [] values 1 rfl
    generalize requestPayload (.writeSostenutoHoldDuty h values) = p at *
    show (if field8 p 0 = 2#8 then Instr.writeSostenutoHoldDuty h (fields16 p 1 5) else _) = _
    rw [first, rest, if_pos rfl]
  case setTiming fields =>
    exact congrArg _ (timingFields_payload h fields)
  case driveEnable value =>
    have first : field8 [value] 0 = value := field8_byte [] [] value 0 rfl
    show (if field8 [value] 0 = 0#8 then _ else Instr.driveEnable h (field8 [value] 0)) = _
    rw [first, if_neg (by simpa [Instr.operandsFit] using fits)]
  case driveDisable => rfl
  case testStrike key intensity holdMs =>
    show Instr.testStrike h _ _ _ = _
    congr 1
    · exact field8_byte [] _ key 0 rfl
    · exact field8_byte [key] _ intensity 1 rfl
    · exact field16_value [key, intensity] [] holdMs 2 rfl
  case readKeyState key => exact congrArg _ (field8_byte [] [] key 0 rfl)

/-- Settles O4: a well-formed request's frame is counted, and its payload reads back field by field. -/
theorem decodedFrameIsTheRequestEncoded : Obligations.DecodedFrameIsTheRequestEncoded := by
  intro i h l f wellFormed head length encoded
  unfold WellFormed at wellFormed
  rw [head] at wellFormed
  simp only [Option.map_some, Option.getD_some, Bool.and_eq_true, Head.counted, decide_eq_true_eq] at wellFormed
  unfold encodeRequest at encoded
  rw [head] at encoded
  cases code : requestCode i with
  | none => rw [code] at encoded; cases encoded
  | some c =>
    rw [code] at encoded
    cases encoded
    rw [decodeFrame_counted length.symm wellFormed.1]
    exact decodeRequest_payload head wellFormed.2 code

end Sys2Proof.Machine

/-! PROOF. The console's requests (chapters 3, 4, 6 and 9). -/

namespace Sys2Proof.Machine

/-! ## Requests that store what they carry -/

/-- A request that a link permits and that is answered OK with no payload, after effects that raise some kinds. -/
theorem exec_request_ok {i : Instr} {h : Head} {s t : State} {p : Link → Bool} {n : Nat} {act : State → Taken}
    {links : List Link} {kinds : BitVec 8} (ht : s.takes h links n) (permitted : p h.link = true)
    (hx : exec i s = .next (s.request h p n act)) (acts : act (s.heard h) = taken t) (raises : Raises (s.heard h) t kinds) :
    exec i s = .next (t.answer h.link (okReply h)) ∧ Answers s (t.answer h.link (okReply h)) h (okReply h) kinds :=
  ⟨exec_request_answered ht permitted hx acts, Answers.of_raises _ raises⟩

theorem clamp_zero (hi x : Nat) : clamp 0 hi x = min hi x := by simp [clamp_eq]

/-! ## PAUSE (R66) -/

theorem exec_pause_enters {h : Head} {s : State} (ht : s.takes h [.C] 0)
    (running : s.session.state ∈ [SessionState.starting, .playing, .stalled]) :
    exec (.pause h) s = .next (((s.heard h).enterPaused none).answer h.link (okReply h)) := by
  refine exec_request_answered ht (onC_of_mem ht.2.1) rfl ?_
  have kept : (s.heard h).session.state = s.session.state := by simp
  cases state : s.session.state with
  | noRoll | loaded | paused | returning => simp [state] at running
  | starting | playing | stalled => simp only [kept, state, taken]

theorem onlyAnswers_pause_refused {h : Head} {s : State} (ht : s.takes h [.C] 0)
    (still : s.session.state ∉ [SessionState.starting, .playing, .stalled]) :
    OnlyAnswers (.pause h) h (refusal h .busy) s := by
  refine onlyAnswers_refusedC ht rfl ?_
  cases state : s.session.state with
  | noRoll | loaded | paused | returning => simp [state]
  | starting | playing | stalled => simp [state] at still

/-- Settles O30: PAUSE makes the entry that `State.enterPaused_spec` describes, or is refused. -/
theorem pauseHoldsThePerformance : Obligations.PauseHoldsThePerformance := by
  intro h s ht
  refine ⟨onlyAnswers_pause_refused ht, fun running => ?_⟩
  obtain ⟨session, raises, silences, stops⟩ := (s.heard h).enterPaused_spec none
  refine ⟨_, exec_pause_enters ht running, Answers.of_raises _ raises, silences.heard.answer _ _, stops.heard.answer _ _, ?_, ?_⟩
  · simp [session]
  · apply State.eq_of_fields <;> simp

/-! ## SET_TEMPO (R43) -/

theorem State.setTempo_speed (s : State) (f : Nat) :
    (s.setTempo f).speed =
      if f = s.speed.tempo then s.speed
      else if s.session.state = .starting then { s.speed with tempo := f, anchor := none, inBandRun := 0 }
      else if s.session.state = .playing then { s.speed with tempo := f, anchor := none, outBandRun := 0 }
      else { s.speed with tempo := f } := by
  unfold State.setTempo
  split
  · rfl
  · cases s.session.state <;> simp [Speed.tempoChanged]

/-- Settles O32. -/
theorem setTempoStoresTheClampedFactor : Obligations.SetTempoStoresTheClampedFactor := by
  intro h factor s ht
  obtain ⟨run, answers⟩ := exec_request_ok (i := .setTempo h factor) ht (onC_of_mem ht.2.1) rfl rfl
    (Raises.none (by simp) (by simp) (by simp))
  refine ⟨_, _, run, clamp_eq _ _ _ (by decide), answers, ?_, ?_⟩
  · simp [State.setTempo_speed]
  · apply State.eq_of_fields <;> simp

/-! ## SET_TRANSPOSE, SET_LEVERS and SET_SHADING (R109 to R111) -/

theorem shadingMode?_of_gt {b : Byte} (high : 2 < b.toNat) : shadingMode? b = none := by
  unfold shadingMode?
  rw [if_neg, if_neg, if_neg] <;> (rintro rfl; simp at high)

theorem exists_shadingMode? {b : Byte} (low : b.toNat ≤ 2) : ∃ m, shadingMode? b = some m ∧ m.code = b := by
  have split : b.toNat = 0 ∨ b.toNat = 1 ∨ b.toNat = 2 := by omega
  rcases split with value | value | value
  · exact ⟨.roll, by simp [shadingMode?, BitVec.eq_of_toNat_eq (y := 0#8) value], (BitVec.eq_of_toNat_eq value).symm⟩
  · exact ⟨.manual, by simp [shadingMode?, BitVec.eq_of_toNat_eq (y := 1#8) value], (BitVec.eq_of_toNat_eq value).symm⟩
  · exact ⟨.blend, by simp [shadingMode?, BitVec.eq_of_toNat_eq (y := 2#8) value], (BitVec.eq_of_toNat_eq value).symm⟩

theorem State.setShading_console (s : State) (m : ShadingMode) (weight gain : Nat) :
    (s.setShading m weight gain).console =
      { s.console with mode := m, blendWeight := min 256 weight, masterGain := min 384 gain } := by
  unfold State.setShading
  dsimp only
  rw [clamp_zero, clamp_zero]
  split <;> simp

theorem State.setShading_same (s : State) {m : ShadingMode} (same : m = s.console.mode) (weight gain : Nat) :
    (s.setShading m weight gain).pedals = s.pedals ∧ (s.setShading m weight gain).shaping = s.shaping := by
  simp [State.setShading, same]

/-- A changed shading mode forms both merged positions again, by the new mode (R110, R156). -/
theorem State.setShading_changed (s : State) {m : ShadingMode} (changed : m ≠ s.console.mode) (weight gain : Nat) :
    (s.setShading m weight gain).pedals =
        { s.pedals with
          mergedDamper := mergePosition m s.pedals.rollDamper s.pedals.consoleDamper
          mergedSoft := mergePosition m s.pedals.rollSoft (requestOf s.pedals.consoleSoft) } ∧
      (s.setShading m weight gain).shaping =
        s.shapingFor (mergePosition m s.pedals.rollDamper s.pedals.consoleDamper)
          (mergePosition m s.pedals.rollSoft (requestOf s.pedals.consoleSoft)) := by
  unfold State.setShading
  dsimp only
  rw [if_pos changed, State.reformMerge_pedals, State.reformMerge_shaping]
  exact ⟨rfl, rfl⟩

theorem State.shapingFor_heard (s : State) (h : Head) (damper soft : Nat) :
    (s.heard h).shapingFor damper soft = s.shapingFor damper soft :=
  State.shapingFor_congr (by simp) (by simp) damper soft

/-- Settles O33. -/
theorem consoleSettingsAreStoredClamped : Obligations.ConsoleSettingsAreStoredClamped := by
  intro h value mode weight gain bass treble s
  refine ⟨fun ht => ?transpose, fun ht => ?levers, fun ht high => ?refused, fun ht low => ?shading⟩
  case transpose =>
    obtain ⟨run, answers⟩ := exec_request_ok (i := .setTranspose h value) ht (onC_of_mem ht.2.1) rfl rfl
      (Raises.none (by simp) (by simp) (by simp))
    refine ⟨_, run, answers, ?_, ?_⟩
    · simp [clampInt_eq]
    · apply State.eq_of_fields <;> simp
  case levers =>
    obtain ⟨run, answers⟩ := exec_request_ok (i := .setLevers h bass treble) ht (onC_of_mem ht.2.1) rfl rfl
      (Raises.none (by simp) (by simp) (by simp))
    refine ⟨_, run, answers, ?_, ?_⟩
    · simp [clamp_zero]
    · apply State.eq_of_fields <;> simp
  case refused => exact onlyAnswers_refusedC ht rfl (by simp [shadingMode?_of_gt high])
  case shading =>
    obtain ⟨m, named, code⟩ := exists_shadingMode? low
    obtain ⟨run, answers⟩ := exec_request_ok (i := .setShading h mode weight gain) ht (onC_of_mem ht.2.1) rfl
      (by simp only [named]; rfl) (Raises.none (by simp) (by simp) (by simp))
    refine ⟨_, run, answers, ?_, ?_, ?same, ?changed, ?_⟩
    · simpa [State.setShading_console] using code
    · simp [State.setShading_console]
    case same =>
      intro unchanged
      have same : m = (s.heard h).console.mode := by simpa [State.setShading_console] using unchanged
      obtain ⟨pedals, shaping⟩ := (s.heard h).setShading_same same weight.toNat gain.toNat
      simp [pedals, shaping]
    case changed =>
      intro moved
      have changed : m ≠ (s.heard h).console.mode := by simpa [State.setShading_console] using moved
      obtain ⟨pedals, shaping⟩ := (s.heard h).setShading_changed changed weight.toNat gain.toNat
      simp [pedals, shaping, State.setShading_console, State.shapingFor_heard, requestOf]
    · apply State.eq_of_fields <;> simp

/-! ## SET_CONSOLE_PEDALS (R154, R156, R160) -/

theorem setting?_of_gt {b : Byte} (high : 1 < b.toNat) : setting? b = none := by
  unfold setting?
  rw [if_neg, if_neg] <;> (rintro rfl; simp at high)

theorem setting?_of_le {b : Byte} (low : b.toNat ≤ 1) : setting? b = some (decide (b.toNat = 1)) := by
  have split : b.toNat = 0 ∨ b.toNat = 1 := by omega
  rcases split with value | value
  · simp [setting?, BitVec.eq_of_toNat_eq (y := 0#8) value]
  · simp [setting?, BitVec.eq_of_toNat_eq (y := 1#8) value]

/-- Settles O34: a setting out of range names no value, and `State.setConsolePedals_spec` says what two settings in range do. -/
theorem consolePedalsMergeAndActuate : Obligations.ConsolePedalsMergeAndActuate := by
  intro h damper soft sostenuto s ht
  refine ⟨fun high => onlyAnswers_refusedC ht rfl ?_, fun lowSoft lowSostenuto => ?_⟩
  · rcases high with high | high
    · simp [setting?_of_gt high]
    · simp only [setting?_of_gt high]
      cases setting? soft <;> rfl
  · obtain ⟨run, answers⟩ := exec_request_ok (i := .setConsolePedals h damper soft sostenuto) ht (onC_of_mem ht.2.1) rfl
      (by simp only [setting?_of_le lowSoft, setting?_of_le lowSostenuto]; rfl) (Raises.none (by simp) (by simp) (by simp))
    obtain ⟨pedals, shaping⟩ := (s.heard h).setConsolePedals_spec damper.toNat (decide (soft.toNat = 1))
      (decide (sostenuto.toNat = 1))
    refine ⟨_, run, answers, ?_, ?_, ?_, ?_, ?_, ?_, ?_, ?_, ?_, ?_⟩
    case refine_9 =>
      have off : sostenuto.toNat = 0 ↔ sostenuto.toNat ≠ 1 := by omega
      simp [pedals, off, pullInTime, after]
    case refine_10 => apply State.eq_of_fields <;> simp
    all_goals simp [pedals, shaping, clamp_zero, requestOf, State.shapingFor_heard]

end Sys2Proof.Machine

/-! PROOF. The service requests (chapters 5, 7, 8, 9, 10 and 11). -/

namespace Sys2Proof.Machine

/-! ## Reports of the S-link (R117, R150, R184) -/

/-- An S-link request that reports and changes nothing. -/
theorem onlyAnswers_reportedS {i : Instr} {h : Head} {s : State} {n : Nat} {act : State → Taken} {payload : List Byte}
    (ht : s.takes h [.S] n) (hx : exec i s = .next (s.request h onS n act))
    (acts : act (s.heard h) = takenWith (s.heard h) payload) : OnlyAnswers i h ⟨.ok, h.tag, payload⟩ s :=
  OnlyAnswers.of_answer (exec_request_answered ht (onS_of_mem ht.2.1) hx acts)

theorem ofNat_of_key {b : BitVec 8} {k : Key} (value : b.toNat = k.val) : BitVec.ofNat 8 k.val = b := by
  rw [← value, BitVec.ofNat_toNat, BitVec.setWidth_eq]

theorem State.key_heard (s : State) (h : Head) (k : Key) : (s.heard h).key k = s.key k := State.key_congr (by simp) k

theorem State.keyCal_heard (s : State) (h : Head) (k : Key) : (s.heard h).keyCal k = s.keyCal k :=
  State.keyCal_congr (by simp) k

theorem State.keyCalPayload_heard (s : State) (h : Head) (k : Key) : (s.heard h).keyCalPayload k = s.keyCalPayload k := by
  simp [State.keyCalPayload, State.keyCal_heard]

theorem State.keyStatePayload_heard (s : State) (h : Head) (k : Key) : (s.heard h).keyStatePayload k = s.keyStatePayload k := by
  simp [State.keyStatePayload, State.key_heard]

theorem State.countersPayload_heard (s : State) (h : Head) : (s.heard h).countersPayload = s.countersPayload := by
  obtain ⟨l, tag, declared⟩ := h
  cases l <;> rfl

/-! ## WRITE_KEY_CAL and READ_KEY_CAL (R116, R117) -/

theorem storedKeyCal_eq (f : KeyCalFields) :
    storedKeyCal f =
      { touchFloor := min 127 f.touchFloor.toNat
        width := Vector.ofFn fun j => (f.width[j]).toNat
        flight := Vector.ofFn fun j => (f.flight[j]).toNat
        holdDuty := min 1000 f.holdDuty.toNat
        settle := max 5000 (min 100000 f.settle.toNat) } := by
  rw [storedKeyCal, clamp_zero, clamp_zero, clamp_eq _ _ _ (by decide)]

/-- The flight points READ_KEY_CAL reports (R117, log entry 9). -/
def KeyCal.reportedFlight (c : KeyCal) : Vector (BitVec 16) 9 := c.flight.map flightField

theorem KeyCal.reportedFlight_of_lt (c : KeyCal) (j : Fin 9) (narrow : c.flight[j] < 65536) :
    c.reportedFlight[j] = BitVec.ofNat 16 c.flight[j] := by
  have narrow' : c.flight[j.val] < 65536 := narrow
  simp [KeyCal.reportedFlight, flightField, narrow']

theorem KeyCal.bytes_eq (c : KeyCal) :
    c.bytes =
      [BitVec.ofNat 8 c.touchFloor] ++ c.width.toList.flatMap (leBytes 2) ++
        c.reportedFlight.toList.flatMap (fun p => leBytes 2 p.toNat) ++ leBytes 2 c.holdDuty ++ leBytes 4 c.settle := by
  rw [KeyCal.bytes, bytes16_ofNat, KeyCal.reportedFlight, Vector.toList_map, bytes16]

/-- Settles O35. -/
theorem keyCalibrationWrittenAndReadBack : Obligations.KeyCalibrationWrittenAndReadBack := by
  intro h key f s
  refine ⟨fun ht high => ?_, fun k ht value => ?write, fun ht high => ?_, fun k ht value => ?read⟩
  · exact onlyAnswers_refusedS ht rfl (by simp [key?_of_ge high])
  case write =>
    obtain ⟨run, answers⟩ := exec_request_ok (i := .writeKeyCal h key f) ht (onS_of_mem ht.2.1) rfl
      (by simp only [key?_of_lt value]; rfl) (Raises.none (by simp) (by simp) (by simp))
    have read (j : Key) : (((s.heard h).writeKeyCal k (storedKeyCal f)).answer h.link (okReply h)).keyCal j =
        if j = k then storedKeyCal f else s.keyCal j := by
      rw [State.keyCal_congr (s := (s.heard h).writeKeyCal k (storedKeyCal f)) (by simp), State.keyCal_writeKeyCal,
        State.keyCal_heard]
    refine ⟨_, run, answers, ?_, fun j other => ?_, ?_⟩
    · rw [read, if_pos rfl, storedKeyCal_eq]
    · rw [read, if_neg other]
    · apply State.eq_of_fields <;> simp
      simp [State.writeKeyCal]
  · exact onlyAnswers_refusedS ht rfl (by simp [key?_of_ge high])
  case read =>
    refine ⟨(s.keyCal k).reportedFlight, (s.keyCal k).reportedFlight_of_lt, ?_⟩
    refine onlyAnswers_reportedS ht rfl ?_
    simp only [key?_of_lt value]
    rw [State.keyCalPayload_heard, State.keyCalPayload, KeyCal.bytes_eq, ofNat_of_key value]
    simp only [List.cons_append, List.nil_append]

/-! ## READ_KEY_STATE and READ_COUNTERS (R150, R184) -/

/-- Settles O42. -/
theorem keyStateAndCountersAreReported : Obligations.KeyStateAndCountersAreReported := by
  intro h key s
  refine ⟨fun ht high => ?_, fun k ht value => ?keyState, fun ht => ?counters⟩
  · exact onlyAnswers_refusedS ht rfl (by simp [key?_of_ge high])
  case keyState =>
    refine onlyAnswers_reportedS ht rfl ?_
    simp only [key?_of_lt value]
    rw [State.keyStatePayload_heard, State.keyStatePayload, ofNat_of_key value]
  case counters =>
    refine onlyAnswers_reportedS ht rfl ?_
    rw [State.countersPayload_heard]
    simp [State.countersPayload, State.counters]

/-! ## WRITE_STEP_TABLE and WRITE_CHANNEL (R78, R83) -/

theorem channel?_of_ge {b : Byte} (high : 4 ≤ b.toNat) : channel? b = none := by
  unfold channel?; rw [dif_neg (by omega)]

theorem channel?_of_eq {b : Byte} {c : Fin 4} (value : b.toNat = c.val) : channel? b = some c := by
  unfold channel?; rw [dif_pos (by omega)]; exact congrArg some (Fin.ext value)

/-- Settles O36. -/
theorem stepTableAndChannelRatesAreStored : Obligations.StepTableAndChannelRatesAreStored := by
  intro h levels channel rateA rateB a b s ha hb
  refine ⟨fun ht => ?table, fun ht high => ?_, fun ht low => ?rates⟩
  case table =>
    obtain ⟨run, answers⟩ := exec_request_ok (i := .writeStepTable h levels) ht (onS_of_mem ht.2.1) rfl rfl
      (Raises.none (by simp) (by simp) (by simp))
    refine ⟨_, run, answers, fun j => ?_, ?_, ?_⟩
    · simp [Shaping.formTargets, clamp_zero]
    · simp [Shaping.formTargets, Shaping.tableLevel, levelStep]
    · apply State.eq_of_fields <;> simp
  · exact onlyAnswers_refusedS ht rfl (by simp [channel?_of_ge high])
  case rates =>
    obtain ⟨c, value⟩ : ∃ c : Fin 4, channel.toNat = c.val := ⟨⟨channel.toNat, low⟩, rfl⟩
    obtain ⟨run, answers⟩ := exec_request_ok (i := .writeChannel h channel rateA rateB) ht (onS_of_mem ht.2.1) rfl
      (by simp only [channel?_of_eq value]; rfl) (Raises.none (by simp) (by simp) (by simp))
    refine ⟨_, run, answers, ?_, ?_⟩
    · rw [ha, hb, ← clamp_eq _ _ _ (by decide), ← clamp_eq _ _ _ (by decide)]
      rw [value]
      fin_cases c <;> simp [Shaping.setRates, Channel.setRates]
    · apply State.eq_of_fields <;> simp

/-! ## WRITE_PEDAL_CURVE and SET_TIMING (R119, R158) -/

theorem curveValues_eq {values : Vector (BitVec 16) 5} {curve : Vector Nat 5}
    (stored : ∀ j : Fin 5, curve[j] = min 1000 (values[j]).toNat) : curveValues values = curve := by
  apply Vector.ext
  intro j hj
  have at_j := stored ⟨j, hj⟩
  simp only [Fin.getElem_fin] at at_j
  simp [curveValues, clamp_zero, at_j]

/-- Settles O37. -/
theorem pedalCurvesAreStoredClamped : Obligations.PedalCurvesAreStoredClamped := by
  intro h selector values curve s ht stored
  have curve_eq := curveValues_eq stored
  refine ⟨?damper, ?soft, ?refused, ?hold⟩
  case damper =>
    rintro rfl
    obtain ⟨run, answers⟩ := exec_request_ok (i := .writePedalCurve h 0#8 values) ht (onS_of_mem ht.2.1) rfl rfl
      (Raises.none (by simp) (by simp) (by simp))
    refine ⟨_, run, answers, ?_⟩
    rw [curve_eq]
    apply State.eq_of_fields <;> simp
  case soft =>
    rintro rfl
    obtain ⟨run, answers⟩ := exec_request_ok (i := .writePedalCurve h 1#8 values) ht (onS_of_mem ht.2.1) rfl rfl
      (Raises.none (by simp) (by simp) (by simp))
    refine ⟨_, run, answers, ?_⟩
    rw [curve_eq]
    apply State.eq_of_fields <;> simp
  case refused =>
    intro high
    refine onlyAnswers_refusedS ht rfl ?_
    unfold State.writeCurve
    rw [if_neg, if_neg, if_neg] <;> (rintro rfl; simp at high)
  case hold =>
    obtain ⟨run, answers⟩ := exec_request_ok (i := .writeSostenutoHoldDuty h values) ht (onS_of_mem ht.2.1) rfl rfl
      (Raises.none (by simp) (by simp) (by simp))
    refine ⟨_, run, answers, ?_⟩
    rw [curve_eq]
    apply State.eq_of_fields <;> simp

theorem storedTiming_eq (f : TimingFields) :
    storedTiming f =
      { lookAhead := max 20000 (min 500000 f.lookAhead.toNat)
        releaseLead := min 500000 f.releaseLead.toNat
        pedalLead := min 500000 f.pedalLead.toNat
        split := max 1 (min 87 f.split.toNat)
        accentBoost := f.accentBoost.toNat
        repeatGap := max 1000 (min 50000 f.repeatGap.toNat)
        stallTimeout := max 20000 (min 500000 f.stallTimeout.toNat)
        speedTolerance := max 5 (min 100 f.speedTolerance.toNat)
        expressionTick := max 1000 (min 20000 f.expressionTick.toNat) } := by
  have boost : min 255 f.accentBoost.toNat = f.accentBoost.toNat := by have := f.accentBoost.isLt; omega
  simp only [storedTiming, clamp_zero, boost]
  simp [clamp_eq]

/-- Settles O38: the state SET_TIMING finds decides between its refusal and its effect. -/
theorem timingIsStoredClampedOrRefused : Obligations.TimingIsStoredClampedOrRefused := by
  intro h f s ht
  have kept : (s.heard h).session.state = s.session.state := by simp
  refine ⟨fun running => onlyAnswers_refusedS ht rfl ?_, fun still => ?_⟩
  · cases state : s.session.state with
    | noRoll | loaded | paused | returning => simp [state] at running
    | starting | playing | stalled => simp only [kept, state]
  · obtain ⟨run, answers⟩ := exec_request_ok (i := .setTiming h f) (t := { s.heard h with timing := storedTiming f }) ht
      (onS_of_mem ht.2.1) rfl
      (by
        cases state : s.session.state with
        | noRoll | loaded | paused | returning => simp only [kept, state]
        | starting | playing | stalled => simp [state] at still)
      (Raises.none (by simp) (by simp) (by simp))
    refine ⟨_, run, answers, ?_, ?_⟩
    · simp [storedTiming_eq]
    · apply State.eq_of_fields <;> simp

/-! ## DRIVE with value enable (R162, R167, R170) -/

theorem State.driveRequest_range (s : State) {value : BitVec 8} (high : 2 ≤ value.toNat) :
    s.driveRequest value = refusedWith s .range := by
  unfold State.driveRequest
  rw [if_neg, if_neg] <;> (rintro rfl; simp at high)

theorem State.driveRequest_enable_fault {s : State} (fault : s.drive.faultInput = true) :
    s.driveRequest 1#8 = refusedWith s .driveOff := by
  simp [State.driveRequest, fault]

theorem State.driveRequest_enable {s : State} (noFault : s.drive.faultInput = false) :
    s.driveRequest 1#8 = taken (if s.drive.actEn then s else s.enableDrive) := by
  simp [State.driveRequest, noFault]

/-- An enabled drive: latch cleared, ACT_EN asserted, and a sostenuto setting held on pulled in (R162, R167, R170). -/
theorem State.enableDrive_fields (s : State) :
    s.enableDrive.drive = { s.drive with actEn := true, faultLatch := false } ∧
      s.enableDrive.pedals = (if s.pedals.consoleSostenuto then { s.pedals with sostenuto := .pullIn (s.clock + 60000#32) }
        else s.pedals) := by
  unfold State.enableDrive
  dsimp only
  split
  · exact ⟨rfl, rfl⟩
  · exact ⟨rfl, rfl⟩

/-- Settles O39. -/
theorem driveIsEnabledWithoutAFault : Obligations.DriveIsEnabledWithoutAFault := by
  intro h value s
  refine ⟨fun ht high => ?_, ?fault, ?enabled, ?enables, rfl⟩
  · exact onlyAnswers_refusedS ht rfl (State.driveRequest_range _ high)
  case fault =>
    rintro ht rfl fault
    exact onlyAnswers_refusedS ht rfl (State.driveRequest_enable_fault (by simpa using fault))
  case enabled =>
    rintro ht rfl noFault enabled
    refine OnlyAnswers.of_answer (exec_request_answered ht (onS_of_mem ht.2.1) rfl ?_)
    rw [State.driveRequest_enable (by simpa using noFault), if_pos (by simpa using enabled)]
    rfl
  case enables =>
    rintro ht rfl noFault disabled
    have acts : (s.heard h).driveRequest 1#8 = taken (s.heard h).enableDrive := by
      rw [State.driveRequest_enable (by simpa using noFault), if_neg (by simpa using disabled)]
    obtain ⟨run, answers⟩ := exec_request_ok (i := .driveEnable h 1#8) ht (onS_of_mem ht.2.1) rfl acts
      (Raises.none (by simp) (by simp) (by simp))
    obtain ⟨drive, pedals⟩ := (s.heard h).enableDrive_fields
    refine ⟨_, run, answers, ?_, ?_, ?_⟩
    · simp [drive]
    · simp [pedals]
    · apply State.eq_of_fields <;> simp

end Sys2Proof.Machine

/-! PROOF. The performance session (chapter 4): PLAY, the roll's requests and the watchdogs' expiries. -/

namespace Sys2Proof.Machine

/-! ## Entry to STARTING (R59) -/

/-- Where an entry to STARTING leads, and what its state is there: RETURNING with a confirmed end mark, STALLED with a LOST
tracker, else STARTING (R59). -/
def State.StartsFrom (s t : State) : Prop :=
  if s.session.endConfirmed then
    t.session = s.session.movedTo .returning (some .endMark) ∧ t.startupTimer = none ∧
      t.intake = { s.intake with state := .off, queue := [], decode := none }
  else if s.tracker.state = .lost then
    t.session = { s.session with state := .stalled, causes := ⟨false, true, false⟩ } ∧ t.startupTimer = none ∧
      t.intake = s.intake
  else
    t.session = s.session.movedTo .starting s.session.lastCause ∧ t.startupTimer = some (s.clock + 3000000#32) ∧
      t.intake = s.intake

/-- Stopping a monitor that an entry to STARTING has just begun changes nothing (R49). -/
theorem Speed.inactive_begun (m : Speed) : ({ m.inactive with lastRatio := 0 } : Speed).inactive = { m.inactive with lastRatio := 0 } :=
  rfl

theorem CauseSet.empty_add_tracking : CauseSet.empty.add .tracking = ⟨false, true, false⟩ := rfl

theorem CauseSet.empty_add_noLines : CauseSet.empty.add .noLines = ⟨true, false, false⟩ := rfl

/-- Everything an entry to STARTING does, through the state its two tests lead to (R49, R52, R59). -/
theorem State.enterStarting_spec (s : State) :
    Raises s s.enterStarting 0x01#8 ∧ Silences s s.enterStarting ∧
      s.enterStarting.speed = { s.speed.inactive with lastRatio := 0 } ∧
      s.enterStarting.stallTimer = (if s.session.state = .playing then none else s.stallTimer) ∧
      s.StartsFrom s.enterStarting := by
  obtain ⟨begun, raises, silences, timer, speed, stall⟩ := s.begunStarting_spec
  have console : s.begunStarting.console = s.console := by simp [State.begunStarting]
  have intake : s.begunStarting.intake = s.intake := by simp [State.begunStarting]
  rw [State.enterStarting_cases, State.StartsFrom]
  split
  · obtain ⟨session', raises', silences', stops', intake'⟩ := s.begunStarting.enterReturning_spec .endMark
    refine ⟨by simpa using raises.trans raises', silences.trans silences' console, ?_, ?_, ?_, ?_, ?_⟩
    · rw [stops'.speed, begun, if_pos (.inl rfl), speed, Speed.inactive_begun]
    · rw [stops'.stallTimer, begun, if_neg (by simp), stall]
    · rw [session', begun]; rfl
    · rw [stops'.startupTimer, begun, if_pos rfl]
    · rw [intake', intake]
  · split
    · obtain ⟨session', raises', silences', stops'⟩ := s.begunStarting.enterStalled_spec .tracking
      refine ⟨by simpa using raises.trans raises', silences.trans silences' console, ?_, ?_, ?_, ?_, ?_⟩
      · rw [stops'.speed, begun, if_pos (.inl rfl), speed, Speed.inactive_begun]
      · rw [stops'.stallTimer, begun, if_neg (by simp), stall]
      · rw [session', begun, CauseSet.empty_add_tracking]
      · rw [stops'.startupTimer, begun, if_pos rfl]
      · simp
    · refine ⟨raises, silences, speed, stall, ?_, timer, intake⟩
      rw [begun]; rfl

/-! ## PLAY (R58, R59) -/

theorem exec_play_starts {h : Head} {s : State} (ht : s.takes h [.C] 0) (allowed : s.playRefusal = none) :
    exec (.play h) s = .next ((s.heard h).enterStarting.answer h.link (okReply h)) := by
  have heard : (s.heard h).playRefusal = none := by simpa [State.playRefusal] using allowed
  refine exec_request_answered ht (onC_of_mem ht.2.1) rfl ?_
  simp only [heard]
  rfl

theorem onlyAnswers_play_refused {h : Head} {s : State} {status : Status} (ht : s.takes h [.C] 0)
    (refused : s.playRefusal = some status) : OnlyAnswers (.play h) h (refusal h status) s := by
  have heard : (s.heard h).playRefusal = some status := by simpa [State.playRefusal] using refused
  exact onlyAnswers_refusedC ht rfl (by simp only [heard])

/-- Settles O29: PLAY's checks in their order, and the entry to STARTING that `State.enterStarting_spec` describes. -/
theorem playStartsThePerformance : Obligations.PlayStartsThePerformance := by
  intro h s ht
  refine ⟨fun busy => ?_, fun ready off => ?_, fun ready on halted => ?_, fun ready on running => ?_⟩
  · refine onlyAnswers_play_refused ht ?_
    simp only [List.mem_cons, List.not_mem_nil, or_false, not_or] at busy
    simp [State.playRefusal, busy]
  · refine onlyAnswers_play_refused ht ?_
    rcases List.mem_pair.mp ready with state | state <;> simp [State.playRefusal, state, off]
  · refine onlyAnswers_play_refused ht ?_
    rcases List.mem_pair.mp ready with state | state <;> simp [State.playRefusal, state, on, halted]
  · have allowed : s.playRefusal = none := by
      rcases List.mem_pair.mp ready with state | state <;> simp [State.playRefusal, state, on, running]
    have notPlaying : s.session.state ≠ .playing := by
      rcases List.mem_pair.mp ready with state | state <;> simp [state]
    obtain ⟨raises, silences, speed, stall, leads⟩ := (s.heard h).enterStarting_spec
    refine ⟨_, exec_play_starts ht allowed, Answers.of_raises _ raises, silences.heard.answer _ _, ?_, ?_, ?_, ?_⟩
    · simp [speed]
    · simp [stall, notPlaying]
    · simpa [State.StartsFrom] using leads
    · apply State.eq_of_fields <;> simp
      simp [stall, notPlaying]

/-! ## ROLL_LOADED and REWOUND (R57, R71) -/

theorem Speed.inactive_inactive (m : Speed) : m.inactive.inactive = m.inactive := rfl

theorem Speed.idle_eq_inactive (m : Speed) : m.idle = m.inactive := rfl

/-- A move out of a state that does not run leaves the monitor alone. -/
theorem State.moveSession_speed_still {s : State} (still : s.session.state.isRunning = false) (dest : SessionState) :
    (s.moveSession dest).speed = s.speed := by
  simp [still]

/-- The roll's start after the session moved to LOADED (R3, R26, R27, R53, R91, R114). -/
theorem State.startsRoll (s : State) : StartsRoll s (s.moveSession .loaded).startRoll where
  session := by simp [State.startRoll, State.clearRoll]
  intake := by simp [State.startRoll, State.clearRoll, Intake.opened]
  tracker := by simp [State.startRoll, State.clearRoll, Tracker.initial]
  detectors k := by simp [State.startRoll, State.clearRoll, detectorsClosed]
  shaping := by simp [State.startRoll, State.clearRoll, Shaping.rollStart, Shaping.tableLevel, levelStep]
  timers := ⟨rfl, rfl⟩
  struckKeys n := by simp [State.startRoll]
  others := by apply State.eq_of_fields <;> simp [State.startRoll, State.clearRoll]

theorem State.startRoll_speed {s : State} (still : s.session.state.isRunning = false) :
    (s.moveSession .loaded).startRoll.speed = s.speed.inactive := by
  simp [State.startRoll, State.clearRoll, still, Speed.idle_eq_inactive]

/-- The start of a roll reads nothing of the links, and the links' later changes are none of its business. -/
theorem StartsRoll.through_links {s u t v : State} (start : StartsRoll u t)
    (before : { u with linkT := s.linkT, linkC := s.linkC, linkS := s.linkS } = s)
    (later : { v with linkT := t.linkT, linkC := t.linkC, linkS := t.linkS, speed := t.speed } = t) : StartsRoll s v := by
  obtain ⟨session, intake, tracker, detectors, shaping, timers, struckKeys, others⟩ := start
  rw [← later] at session intake tracker detectors shaping timers struckKeys others
  rw [← before]
  refine ⟨session, intake, tracker, detectors, shaping, timers, struckKeys, ?_⟩
  have linked := congrArg (fun w : State => { w with linkT := s.linkT, linkC := s.linkC, linkS := s.linkS }) others
  exact linked

theorem State.heard_links (s : State) (h : Head) :
    { s.heard h with linkT := s.linkT, linkC := s.linkC, linkS := s.linkS } = s := by
  apply State.eq_of_fields <;> simp

theorem State.answer_links (s : State) (l : Link) (r : Reply) :
    { s.answer l r with linkT := s.linkT, linkC := s.linkC, linkS := s.linkS } = s := by
  apply State.eq_of_fields <;> simp

theorem exec_rollLoaded_starts {h : Head} {rate : BitVec 16} {s : State} (ht : s.takes h [.T] 2)
    (empty : s.session.state = .noRoll) :
    exec (.rollLoaded h rate) s = .next (((s.heard h).loadRoll rate.toNat).answer h.link (okReply h)) :=
  exec_request_answered ht (onT_of_mem ht.2.1) rfl (by simp [empty, taken])

theorem exec_rewound_starts {h : Head} {s : State} (ht : s.takes h [.T] 0) (returning : s.session.state = .returning) :
    exec (.rewound h) s = .next (((s.heard h).moveSession .loaded).startRoll.answer h.link (okReply h)) :=
  exec_request_answered ht (onT_of_mem ht.2.1) rfl (by simp [returning, taken])

/-- Settles O19: both requests make the start that `State.startsRoll` describes, and ROLL_LOADED stores its rate besides. -/
theorem rollLoadedAndRewoundStartTheRoll : Obligations.RollLoadedAndRewoundStartTheRoll := by
  intro h rate s
  refine ⟨fun ht busy => ?_, fun ht empty => ?loaded, fun ht busy => ?_, fun ht returning => ?rewound⟩
  · exact onlyAnswers_refusedT ht rfl (by simp [busy])
  case loaded =>
    have still : (s.heard h).session.state.isRunning = false := by simp [empty, SessionState.isRunning]
    refine ⟨_, exec_rollLoaded_starts ht empty, ?_, (s.heard h).startsRoll.through_links (s.heard_links h) ?_, ?_⟩
    · exact Answers.of_raises _ (((s.heard h).moveSession_raises .loaded).keep rfl rfl rfl)
    · apply State.eq_of_fields <;> simp [State.loadRoll]
    · simp [State.loadRoll, State.startRoll_speed still, clamp_eq]
  · exact onlyAnswers_refusedT ht rfl (by simp [busy])
  case rewound =>
    have still : (s.heard h).session.state.isRunning = false := by simp [returning, SessionState.isRunning]
    refine ⟨_, exec_rewound_starts ht returning, ?_, (s.heard h).startsRoll.through_links (s.heard_links h) ?_, ?_⟩
    · exact Answers.of_raises _ (((s.heard h).moveSession_raises .loaded).keep (by simp) (by simp) (by simp))
    · apply State.eq_of_fields <;> simp
    · simp [State.startRoll_speed still]

/-! ## ROLL_REMOVED (R72) -/

/-- The session, the silence and the cleared roll of ROLL_REMOVED outside NO_ROLL (R3, R26, R27, R53, R72, R92, R114). -/
theorem State.removeRoll_spec (s : State) :
    Raises s s.removeRoll 0x01#8 ∧ Silences s ((s.moveSession .noRoll).setLastCause none).silence ∧
      s.removeRoll.speed = s.speed.inactive := by
  refine ⟨(s.moveSession_raises .noRoll).keep ?_ ?_ ?_, ?_, ?_⟩
  iterate 3 simp [State.removeRoll, State.clearRoll]
  · exact (State.silence_silences _).of_same (by simp) (by simp) (by simp) (by simp) (by simp) (by simp) (by simp) (by simp)
  · have stopped := (s.moveSession_stops (d := .noRoll) rfl).speed
    have idle : s.removeRoll.speed = (s.moveSession .noRoll).speed.inactive := by
      simp [State.removeRoll, State.clearRoll, Speed.idle_eq_inactive]
    rw [idle, stopped]
    split
    · exact Speed.inactive_inactive _
    · rfl

theorem exec_rollRemoved_removes {h : Head} {s : State} (ht : s.takes h [.T] 0) (loaded : s.session.state ≠ .noRoll) :
    exec (.rollRemoved h) s = .next ((s.heard h).removeRoll.answer h.link (okReply h)) :=
  exec_request_answered ht (onT_of_mem ht.2.1) rfl (by simp [loaded, taken])

/-- Settles O20: NO_ROLL only answers, and elsewhere the notice of `State.removeRoll_spec` silences what the roll drove. -/
theorem rollRemovedSilencesAndClears : Obligations.RollRemovedSilencesAndClears := by
  intro h s ht
  refine ⟨fun empty => ?_, fun loaded => ?_⟩
  · exact OnlyAnswers.of_answer (exec_request_answered ht (onT_of_mem ht.2.1) rfl (by simp [empty, taken]))
  obtain ⟨raises, silences, speed⟩ := (s.heard h).removeRoll_spec
  have silent := silences.heard
  refine ⟨_, exec_rollRemoved_removes ht loaded, Answers.of_raises _ raises, ?_, ?_, ?_, ?_, fun k => ?_, fun n => ?_, ?_, ?_, ?_,
    ?_, fun k => ?_, ?_, ?_, ?_, ?_⟩
  · simp [State.removeRoll, State.clearRoll]
  · simpa [State.removeRoll, State.clearRoll] using silent.queue
  · simpa [State.removeRoll, State.clearRoll] using silent.strikes
  · simpa [State.removeRoll, State.clearRoll] using silent.slots
  · rw [← silent.keys k]
    exact State.key_congr (by simp [State.removeRoll, State.clearRoll]) k
  · simpa [State.removeRoll, State.clearRoll] using silent.struckKeys n
  · simpa [State.removeRoll, State.clearRoll] using silent.pedals
  · simp [State.removeRoll, State.clearRoll, Shaping.rollRemoved, silent.shaping]
  · simp [State.removeRoll, State.clearRoll, Intake.removed, Intake.stopped, Intake.emptied]
  · simp [State.removeRoll, State.clearRoll, Tracker.initial]
  · simp [State.removeRoll, State.clearRoll, detectorsClosed]
  · simpa using speed
  · simp [State.removeRoll]
  · simp [State.removeRoll]
  · apply State.eq_of_fields <;> simp [State.removeRoll, State.clearRoll]

/-! ## The timers' expiries (R41, R51, R52, R63, R65) -/

theorem timerExpired_of_running {now d : Time} {timer : Option Time} (running : timer = some d)
    (due : (now - d).toNat < 2147483648) : timerExpired now timer = true := by
  rw [running]; exact reached_of_lt due

theorem exec_stallTimerExpiry_playing {d : Time} {s : State} (due : (s.clock - d).toNat < 2147483648)
    (running : s.stallTimer = some d) (playing : s.session.state = .playing) :
    exec .stallTimerExpiry s = .next (({ s with stallTimer := none } : State).enterStalled .noLines) := by
  have arm : exec .stallTimerExpiry s = .next (if timerExpired s.clock s.stallTimer then
      ({ s with stallTimer := none } : State).reportStall .noLines else s) := rfl
  rw [arm, if_pos (timerExpired_of_running running due), State.reportStall]
  simp only [playing]

theorem exec_startupTimerExpiry_starting {d : Time} {s : State} (due : (s.clock - d).toNat < 2147483648)
    (running : s.startupTimer = some d) (starting : s.session.state = .starting) :
    exec .startupTimerExpiry s = .next (({ s with startupTimer := none } : State).enterPaused (some .startFailed)) := by
  have arm : exec .startupTimerExpiry s = .next (if timerExpired s.clock s.startupTimer then
      ({ s with startupTimer := none } : State).startFailed else s) := rfl
  rw [arm, if_pos (timerExpired_of_running running due), State.startFailed]
  simp only [starting, if_true]

/-- Settles O45: each expiry makes the entry its lemma names, and a stopped timer fails the command's own test. -/
theorem timerExpiriesReportToTheSession : Obligations.TimerExpiriesReportToTheSession := by
  intro d s due
  refine ⟨fun running playing => ?stall, fun running starting => ?startup, fun stopped => ?_, fun stopped => ?_⟩
  case stall =>
    obtain ⟨session, raises, silences, stops⟩ := ({ s with stallTimer := none } : State).enterStalled_spec .noLines
    refine ⟨_, exec_stallTimerExpiry_playing due running playing, raises, ?_, ⟨?_, ?_, ?_⟩, ?_, ?_⟩
    · exact silences.of_same rfl rfl rfl rfl rfl rfl rfl rfl
    · exact stops.startupTimer
    · rw [stops.stallTimer, if_pos playing, if_pos playing]
    · exact stops.speed
    · rw [session, CauseSet.empty_add_noLines]
    · apply State.eq_of_fields <;> simp
  case startup =>
    obtain ⟨session, raises, silences, stops⟩ :=
      ({ s with startupTimer := none } : State).enterPaused_spec (some .startFailed)
    refine ⟨_, exec_startupTimerExpiry_starting due running starting, raises, ?_, ⟨?_, ?_, ?_⟩, session, ?_⟩
    · exact silences.of_same rfl rfl rfl rfl rfl rfl rfl rfl
    · rw [stops.startupTimer, if_pos starting, if_pos starting]
    · exact stops.stallTimer
    · exact stops.speed
    · apply State.eq_of_fields <;> simp
  · show Host.Outcome.next (if timerExpired s.clock s.stallTimer then _ else s) = _
    rw [stopped]; rfl
  · show Host.Outcome.next (if timerExpired s.clock s.startupTimer then _ else s) = _
    rw [stopped]; rfl

end Sys2Proof.Machine

/-! PROOF. The restart of the intake and the end of its stall cause (chapters 1 and 4). -/

namespace Sys2Proof.Machine

/-! ## The end of a stall cause (R64) -/

/-- A held cause leaves the set, and nothing else happens while another is held. -/
theorem State.reportStallEnd_remaining {s : State} {c : StallCause} (stalled : s.session.state = .stalled)
    (held : s.session.causes.holds c = true) (remaining : s.session.causes.remove c ≠ CauseSet.empty) :
    s.reportStallEnd c = { s with session := { s.session with causes := s.session.causes.remove c } } := by
  unfold State.reportStallEnd
  rw [if_pos ⟨stalled, held⟩]
  exact if_neg remaining

/-- The last held cause's end leads to STARTING. -/
theorem State.reportStallEnd_last {s : State} {c : StallCause} (stalled : s.session.state = .stalled)
    (held : s.session.causes.holds c = true) (last : s.session.causes.remove c = CauseSet.empty) :
    s.reportStallEnd c = ({ s with session := { s.session with causes := CauseSet.empty } } : State).enterStarting := by
  unfold State.reportStallEnd
  rw [if_pos ⟨stalled, held⟩]
  dsimp only
  rw [if_pos last, last]

/-! ## INTAKE_RESTART (R8) -/

theorem Intake.restarted_eq (i : Intake) :
    i.restarted =
      { i with state := .accepting, queue := [], decode := none, expected := none
               restartBase := (i.lastPosition.map (· + 1#32)).getD 0#32 } :=
  rfl

/-- A restarted intake has its whole room free, so LINE_RDY is asserted (R11). -/
theorem State.lineReady_of_restarted {s : State} {i : Intake} (restarted : s.intake = i.restarted) : s.lineReady = true := by
  simp [State.lineReady, restarted, Intake.restarted_eq, Intake.freeRoom, intakeCapacity, lineReadyRoom]

theorem State.restartIntake_off {s : State} (off : s.intake.state = .off) : s.restartIntake = s := by
  simp only [State.restartIntake, off]

theorem State.restartIntake_on {s : State} (on : s.intake.state ≠ .off) :
    s.restartIntake = ({ s with intake := s.intake.restarted } : State).reportStallEnd .intakeHalt := by
  cases state : s.intake.state with
  | off => exact absurd state on
  | accepting | halted => simp only [State.restartIntake, state]

theorem exec_intakeRestart {h : Head} {s : State} (ht : s.takes h [.T] 0) :
    exec (.intakeRestart h) s = .next ((s.heard h).restartIntake.answer h.link (okReply h)) :=
  exec_request_answered ht (onT_of_mem ht.2.1) rfl rfl

/-- What is left of INTAKE_HALT's set is empty exactly when neither other cause is held. -/
theorem CauseSet.remove_intakeHalt_eq_empty_iff (c : CauseSet) :
    c.remove .intakeHalt = CauseSet.empty ↔ ¬(c.noLines = true ∨ c.tracking = true) := by
  obtain ⟨noLines, tracking, intakeHalt⟩ := c
  cases noLines <;> cases tracking <;> simp [CauseSet.remove, CauseSet.empty]

/-- The restarted intake stands after the end of INTAKE_HALT unless that leads to RETURNING. -/
theorem State.reportStallEnd_intake (s : State) (c : StallCause) (stays : (s.reportStallEnd c).session.state ≠ .returning) :
    (s.reportStallEnd c).intake = s.intake := by
  by_cases held : s.session.state = .stalled ∧ s.session.causes.holds c = true
  · obtain ⟨stalled, holds⟩ := held
    by_cases last : s.session.causes.remove c = CauseSet.empty
    · rw [State.reportStallEnd_last stalled holds last] at stays ⊢
      obtain ⟨-, -, -, -, leads⟩ := ({ s with session := { s.session with causes := CauseSet.empty } } : State).enterStarting_spec
      unfold State.StartsFrom at leads
      split at leads
      · exact absurd (by rw [leads.1]; rfl) stays
      · split at leads
        · exact leads.2.2
        · exact leads.2.2
    · rw [State.reportStallEnd_remaining stalled holds last]
  · rw [State.reportStallEnd_unheld fun stalled => by simpa [stalled] using held]

/-- The state an entry to STARTING ends in, by the flag and the tracker it finds (R59). -/
theorem State.enterStarting_state (s : State) :
    s.enterStarting.session.state =
      if s.session.endConfirmed then .returning else if s.tracker.state = .lost then .stalled else .starting := by
  obtain ⟨-, -, -, -, leads⟩ := s.enterStarting_spec
  unfold State.StartsFrom at leads
  split
  · rw [if_pos ‹_›] at leads
    rw [leads.1]; rfl
  · rw [if_neg ‹_›] at leads
    split
    · rw [if_pos ‹_›] at leads
      rw [leads.1]
    · rw [if_neg ‹_›] at leads
      rw [leads.1]; rfl

/-- Settles O21: the intake is restarted, and the end of INTAKE_HALT acts by the causes held. -/
theorem intakeRestartReopensTheIntake : Obligations.IntakeRestartReopensTheIntake := by
  intro h s ht
  refine ⟨fun off => OnlyAnswers.of_answer ?_, fun on => ?_⟩
  · rw [exec_intakeRestart ht, State.restartIntake_off (by simpa using off)]
  have restart := (s.heard h).restartIntake_on (by simpa using on)
  generalize hu : ({ s.heard h with intake := (s.heard h).intake.restarted } : State) = u at restart
  have session : u.session = s.session := by rw [← hu]; simp
  have tracker : u.tracker = s.tracker := by rw [← hu]; simp
  have intake : u.intake = s.intake.restarted := by rw [← hu]; simp
  have onT : h.link = .T := by simpa using ht.2.1
  refine ⟨_, exec_intakeRestart ht, ?_, fun stays => ?_, fun idle => ?_, fun stalled held => ?_⟩
  · simp [onT, State.answer, State.link, State.setLink]
  · have kept : ((s.heard h).restartIntake.answer h.link (okReply h)).intake = s.intake.restarted := by
      rw [← intake, restart]
      simpa using u.reportStallEnd_intake .intakeHalt (by simpa [restart] using stays)
    exact ⟨kept, State.lineReady_of_restarted kept⟩
  · have unheld : u.reportStallEnd .intakeHalt = u := State.reportStallEnd_unheld fun stalled => by
      rw [session] at stalled ⊢
      exact idle.resolve_left (not_not_intro stalled)
    rw [restart, unheld]
    refine ⟨Answers.of_raises _ (Raises.none ?_ ?_ ?_), ?_⟩
    iterate 3 rw [← hu]
    rw [← hu]
    apply State.eq_of_fields <;> simp
  · have stalled' : u.session.state = .stalled := by rw [session, stalled]
    have held' : u.session.causes.holds .intakeHalt = true := by rw [session]; exact held
    rw [restart]
    split
    · have remaining : u.session.causes.remove .intakeHalt ≠ CauseSet.empty := by
        rw [session, ne_eq, CauseSet.remove_intakeHalt_eq_empty_iff]
        exact not_not_intro ‹_›
      rw [State.reportStallEnd_remaining stalled' held' remaining]
      simp [session, CauseSet.remove]
    · have last : u.session.causes.remove .intakeHalt = CauseSet.empty := by
        rw [session, CauseSet.remove_intakeHalt_eq_empty_iff]
        exact ‹_›
      rw [State.reportStallEnd_last stalled' held' last]
      have leads := ({ u with session := { u.session with causes := CauseSet.empty } } : State).enterStarting_state
      rw [session, tracker] at leads
      simpa [session, tracker] using leads

end Sys2Proof.Machine

/-! PROOF. Ticks, frames, performed entries and the ends of key phases (chapters 8, 9 and 10). -/

namespace Sys2Proof.Machine

/-! ## The thermal tick (R172 to R174) -/

theorem appliedHoldDuty_eq (t : Thermal) (duty : Nat) : appliedHoldDuty t duty = if t = .cool then duty else duty / 2 := by
  cases t <;> rfl

theorem cooling_eq (heat : Nat) : cooling heat = if heat = 0 then 0 else max 1 (heat * 3 / 256) := by
  unfold cooling
  dsimp only
  split <;> split <;> omega

theorem holdingHeat_eq (r : KeyRecord) (duty : Nat) :
    holdingHeat r duty = if r.phase = .hold then appliedHoldDuty r.thermal duty / 2 else 0 := by
  unfold holdingHeat
  cases r.phase <;> simp

/-- Some key's condition differs after the tick exactly when the tick announces it. -/
theorem State.heatChanges_iff (s : State) : s.heatChanges = true ↔ ∃ k, (s.cooled.key k).thermal ≠ (s.key k).thermal := by
  simp [State.heatChanges, allKeys, State.key_cooled]

/-- Cooling writes the keys and the next deadline only. -/
theorem State.cooled_writes (s : State) :
    ∃ keys, s.cooled = { s with keys := keys, thermalDeadline := s.thermalDeadline + 10000#32 } :=
  ⟨_, rfl⟩

theorem State.key_thermalTick (s : State) (k : Key) : s.thermalTick.key k = s.cooled.key k := by
  rw [State.thermalTick_eq]
  split
  · exact State.key_congr (by simp) k
  · rfl

/-- Settles O47. -/
theorem thermalTickCoolsEveryKey : Obligations.ThermalTickCoolsEveryKey := by
  intro s due
  have arm : exec .thermalTick s = .next (if reached s.clock s.thermalDeadline then s.thermalTick else s) := rfl
  rw [reached_of_lt due, if_pos rfl] at arm
  obtain ⟨keys, writes⟩ := s.cooled_writes
  refine ⟨_, arm, fun k => ?_, fun changed => ?_, fun same => ?_, ?_, ?_⟩
  · rw [State.key_thermalTick, State.key_cooled]
    refine ⟨_, _, _, rfl, rfl, rfl, ?_, Thermal.evaluate_moves _ _⟩
    simp only [KeyRecord.thermalTick, KeyRecord.withHeat, tickedHeat, cooling_eq, holdingHeat_eq, appliedHoldDuty_eq]
  · simp only [State.key_thermalTick] at changed
    rw [State.thermalTick_eq, if_pos (s.heatChanges_iff.mpr changed), writes]
    exact (Raises.none rfl rfl rfl).raise .heat
  · simp only [State.key_thermalTick] at same
    have calm : ¬s.heatChanges = true := fun changed => by
      obtain ⟨k, moved⟩ := s.heatChanges_iff.mp changed
      exact moved (same k)
    rw [State.thermalTick_eq, if_neg calm, writes]
    exact Raises.none rfl rfl rfl
  · rw [State.thermalTick_eq, writes]
    split
    · rfl
    · rfl
  · rw [State.thermalTick_eq, writes]
    split
    · rfl
    · rfl

/-! ## The frame boundary (R157, R159, R166) -/

theorem State.takeDuties_getElem (s : State) (i : Fin 91) : s.takeDuties[i] = if s.drive.actEn then s.ownerDuty i else 0 := by
  simp [State.takeDuties]

theorem State.ownerDuty_key (s : State) (k : Key) (low : k.val < 91) : s.ownerDuty ⟨k.val, low⟩ = s.keyDuty k := by
  unfold State.ownerDuty
  rw [dif_pos k.isLt]

theorem State.keyDuty_eq (s : State) (k : Key) :
    s.keyDuty k =
      (match (s.key k).phase with
      | .idle _ | .releasing _ => 0
      | .strike _ _ _ => 1000
      | .hold => if (s.key k).thermal = .cool then (s.keyCal k).holdDuty else (s.keyCal k).holdDuty / 2) := by
  unfold State.keyDuty
  cases (s.key k).phase <;> simp [appliedHoldDuty_eq]

theorem curveDuty_spec (curve : Vector Nat 5) (x : Nat) : CurveDuty curve x (curveDuty curve x) :=
  interpolate_value curve (x / 256) (x % 256) 256 (Nat.le_of_lt (Nat.mod_lt x (by decide))) (by decide)

/-- Settles O48: each output's new duty is `State.ownerDuty` of it, and 0 without ACT_EN. -/
theorem frameBoundaryTakesTheDuties : Obligations.FrameBoundaryTakesTheDuties := by
  intro s due
  have arm : exec .pwmFrameBoundary s = .next (if reached s.clock s.frameDeadline then s.frameBoundary else s) := rfl
  rw [reached_of_lt due, if_pos rfl] at arm
  have duty := s.takeDuties_getElem
  rw [State.frameBoundary] at arm
  generalize s.takeDuties = duties at arm duty
  refine ⟨_, arm, fun off i => ?_, fun on => ⟨fun k => ?_, ?_, ?_, ?_⟩, rfl, rfl⟩
  · rw [duty, off]; rfl
  · have owned := duty ⟨k.val, by omega⟩
    rw [if_pos on, State.ownerDuty_key, State.keyDuty_eq] at owned
    exact owned
  · have owned := duty 88
    rw [if_pos on] at owned
    exact owned ▸ curveDuty_spec _ _
  · have owned := duty 89
    rw [if_pos on] at owned
    exact owned ▸ curveDuty_spec _ _
  · have owned := duty 90
    rw [if_pos on] at owned
    exact owned

/-! ## PEDAL and END entries (R70, R152) -/

theorem exec_pedalEntryPerform_of {s : State} {pre post : List Entry} {e : Entry} {p : Pedal} {v : Nat}
    (next : s.performsNext pre e post) (action : e.action = .pedal p v) :
    exec .pedalEntryPerform s = .next (({ s with queue := pre ++ post } : State).rollRequested p v) := by
  have performed := State.performNext_of next (kind := Action.isPedal) (by rw [action]; rfl)
  have arm : exec .pedalEntryPerform s = .next (s.performNext Action.isPedal) := rfl
  rw [arm, performed, action, State.perform, State.setRollRequest_eq]

theorem exec_endEntryPerform_of {s : State} {pre post : List Entry} {e : Entry}
    (next : s.performsNext pre e post) (action : e.action = .endMark) (playing : s.session.state = .playing) :
    exec .endEntryPerform s = .next (({ s with queue := pre ++ post } : State).enterReturning .endMark) := by
  have performed := State.performNext_of next (kind := Action.isEnd) (by rw [action]; rfl)
  have arm : exec .endEntryPerform s = .next (s.performNext Action.isEnd) := rfl
  rw [arm, performed, action, State.perform, State.performEnd]
  exact congrArg Host.Outcome.next (if_pos playing)

/-- An entry performed before the silence notice is no STRIKE, so the notice counts the same cancelled strikes (R146). -/
theorem State.performsNext_cancels {s : State} {pre post : List Entry} {e : Entry} (next : s.performsNext pre e post) :
    ({ s with queue := pre ++ post } : State).cancelledStrikes = s.cancelledStrikes := by
  obtain ⟨queue, notStrike, -, -⟩ := next
  simp [State.cancelledStrikes, queue, strikeEntries, notStrike]

/-- Settles O51: PEDAL entries by `State.setRollRequest_eq`, the END entry by the entry to RETURNING. -/
theorem pedalAndEndEntriesArePerformed : Obligations.PedalAndEndEntriesArePerformed := by
  intro s pre post e next
  refine ⟨?damper, ?soft, ?endMark⟩
  case damper =>
    rintro v merged action rfl
    exact exec_pedalEntryPerform_of next action
  case soft =>
    rintro v merged action rfl
    exact exec_pedalEntryPerform_of next action
  case endMark =>
    intro action playing
    obtain ⟨session, raises, silences, stops, intake⟩ :=
      ({ s with queue := pre ++ post } : State).enterReturning_spec .endMark
    refine ⟨_, exec_endEntryPerform_of next action playing, raises, ?_, ?_, session, intake, ?_⟩
    · obtain ⟨queue, strikes, slots, keys, struckKeys, pedals, shaping⟩ := silences
      exact ⟨queue, strikes.trans (State.performsNext_cancels next), slots, keys, struckKeys, pedals, shaping⟩
    · obtain ⟨startup, stall, speed⟩ := stops
      exact ⟨startup, stall, speed⟩
    · apply State.eq_of_fields <;> simp

/-! ## Ends of key phases and of the pull-in (R143, R144, R161) -/

/-- A strike marked release-after ends in RELEASING, and its owner goes unless a strike of it still waits (R104, R143). -/
theorem State.endStrike_marked (s : State) (k : Key) (o : Owner) :
    s.endStrike k true o =
      ({ s with slots := s.slots.erase k } : State).setKey k { s.key k with
        phase := .releasing (s.clock + BitVec.ofNat 32 (s.keyCal k).settle)
        owner := if (s.key k).owner = some o ∧ s.queue.any (fun x => x.isStrikeOf k o) = false then none
          else (s.key k).owner } := by
  have kept : ({ s with slots := s.slots.erase k } : State).key k = s.key k := rfl
  simp only [State.endStrike, if_true, kept, State.clearOwnerOf_setKey]
  rfl

/-- Settles O53: the phase a key is in selects its event's one branch, and the end time is reached. -/
theorem keyPhasesAndPullInEnd : Obligations.KeyPhasesAndPullInEnd := by
  intro k e s due
  have ended := reached_of_lt due
  refine ⟨fun o phase => ?_, fun o phase => ?_, fun phase => ?_, fun rested phase gap => ?_, fun phase => ?_⟩
  · show execStrikeEnd k s = _
    simp only [execStrikeEnd, phase, ended, if_true]
    rfl
  · show execStrikeEnd k s = _
    simp only [execStrikeEnd, phase, ended, if_true, State.endStrike_marked]
  · show execSettleEnd k s = _
    simp only [execSettleEnd, phase, ended, if_true]
  · show execKeyRested k s = _
    have gapOver : s.gapOver k = true := decide_eq_true gap
    simp only [execKeyRested, phase, gapOver, if_true]
  · show execPullInEnd s = _
    simp only [execPullInEnd, phase, ended, if_true]
    rfl

end Sys2Proof.Machine

/-! PROOF. Lines refused, overrun and out of order (chapter 1). -/

namespace Sys2Proof.Machine

/-! ## LINE_RDY (R11) -/

theorem State.lineReady_iff (s : State) :
    s.lineReady = true ↔ s.intake.state = .accepting ∧ s.intake.queue.length ≤ 12 := by
  have room : lineReadyRoom ≤ s.intake.freeRoom ↔ s.intake.queue.length ≤ 12 := by
    unfold lineReadyRoom Intake.freeRoom intakeCapacity
    omega
  rw [State.lineReady, Bool.and_eq_true, beq_iff_eq, decide_eq_true_eq, room]

theorem State.lineReady_eq_false {s : State} (unready : s.intake.state ≠ .accepting ∨ 12 < s.intake.queue.length) :
    s.lineReady = false := by
  rw [Bool.eq_false_iff, ne_eq, State.lineReady_iff]
  rintro ⟨accepting, room⟩
  rcases unready with state | full
  · exact state accepting
  · omega

/-! ## Refused and overrun lines (R4, R7) -/

theorem State.takeLine_refused {s : State} (closed : s.intake.state ≠ .accepting) (c : CarriedLine) :
    s.takeLine c = { s with intake := { s.intake with refused := bump s.intake.refused 1 } } := by
  rw [← satAdd_eq_bump]
  unfold State.takeLine
  cases state : s.intake.state with
  | accepting => exact absurd state closed
  | off | halted => rfl

theorem State.takeLine_overrun {s : State} (accepting : s.intake.state = .accepting) (full : 16 ≤ s.intake.queue.length)
    (c : CarriedLine) :
    s.takeLine c =
      ({ s with intake := { s.intake with overruns := bump s.intake.overruns 1 } } : State).raise .intake := by
  rw [← satAdd_eq_bump]
  unfold State.takeLine
  rw [accepting]
  exact if_pos full

/-- Settles O13. -/
theorem refusedAndOverrunLines : Obligations.RefusedAndOverrunLines := by
  intro h index left right flags photosites s ht
  have taken := exec_scanLine_taken ht index left right flags photosites
  refine ⟨fun closed => ?_, fun accepting full => ?_⟩
  · rw [State.takeLine_refused (by simpa using closed)] at taken
    refine ⟨_, taken, Hears.of_raises (Raises.none rfl rfl rfl), by simp, ?_, ?_⟩
    · exact State.lineReady_eq_false (.inl (by simpa using closed))
    · apply State.eq_of_fields <;> simp
  · rw [State.takeLine_overrun (by simpa using accepting) (by simpa using full)] at taken
    refine ⟨_, taken, Hears.of_raises ((Raises.none rfl rfl rfl).raise .intake), by simp, ?_, ?_⟩
    · exact State.lineReady_eq_false (.inr (by simp; omega))
    · apply State.eq_of_fields <;> simp

/-! ## Out-of-order lines (R6, R63) -/

theorem State.checkLine_halts {s : State} {e : LineIndex} {c : CarriedLine} (expected : s.intake.expected = some e)
    (far : 64 ≤ (c.index - e).toNat) : s.checkLine c = s.haltIntake := by
  unfold State.checkLine
  rw [expected]
  exact if_neg (by rw [gapLimit]; omega)

/-- What a reported stall cause does to a session that runs, is stalled, or is neither (R63). -/
theorem State.reportStall_running {s : State} (running : s.session.state = .starting ∨ s.session.state = .playing)
    (c : StallCause) : s.reportStall c = s.enterStalled c := by
  unfold State.reportStall
  rcases running with state | state <;> rw [state]

theorem State.reportStall_still {s : State} (still : ¬(s.session.state = .starting ∨ s.session.state = .playing))
    (c : StallCause) :
    s.reportStall c =
      { s with session := if s.session.state = .stalled then { s.session with causes := s.session.causes.add c } else s.session } := by
  unfold State.reportStall
  cases state : s.session.state with
  | starting | playing => simp [state] at still
  | noRoll | loaded | paused | stalled | returning => simp

/-- The out-of-order line's part of the intake, counted and announced, before the session is told (R6). -/
def State.halting (s : State) : State :=
  ({ s with intake := { s.intake with state := .halted, outOfOrder := bump s.intake.outOfOrder 1 } } : State).raise .intake

theorem State.haltIntake_eq (s : State) : s.haltIntake = s.halting.reportStall .intakeHalt := by
  rw [State.haltIntake, State.halting, satAdd_eq_bump]

theorem State.halting_raises (s : State) : Raises s s.halting 0x08#8 := (Raises.none rfl rfl rfl).raise .intake

theorem State.halting_intake (s : State) :
    s.halting.intake = { s.intake with state := .halted, outOfOrder := bump s.intake.outOfOrder 1 } := rfl

/-- Settles O14. -/
theorem outOfOrderLineHaltsTheIntake : Obligations.OutOfOrderLineHaltsTheIntake := by
  intro h index left right flags photosites e s ht accepting room expected far
  have taken := exec_scanLine_taken ht index left right flags photosites
  rw [State.takeLine_check (by simpa using accepting) (by simpa using room),
    State.checkLine_halts (by simpa using expected) (by simpa [carriedLine] using far), State.haltIntake_eq] at taken
  have raises := (s.heard h).halting_raises
  have session : (s.heard h).halting.session = s.session := by simp [State.halting]
  have intake := (s.heard h).halting_intake
  refine ⟨_, taken, ?_, ?_, ?_⟩
  · simpa using intake
  · exact State.lineReady_eq_false (.inl (by simp [intake]))
  · split
    · rename_i running
      rw [State.reportStall_running (by rw [session]; exact running)]
      obtain ⟨session', raises', silences, stops⟩ := (s.heard h).halting.enterStalled_spec .intakeHalt
      have silences := silences.of_same (s := s.heard h) rfl rfl rfl rfl rfl rfl rfl rfl
      have stops : StopsRunning (s.heard h) _ := ⟨stops.startupTimer, stops.stallTimer, stops.speed⟩
      refine ⟨?_, Hears.of_raises (raises.trans raises'), silences.heard, stops.heard, ?_⟩
      · rw [session', session]; rfl
      · apply State.eq_of_fields <;> simp [State.halting]
    · rename_i still
      rw [State.reportStall_still (by rw [session]; exact still)]
      refine ⟨?_, Hears.of_raises (raises.keep rfl rfl rfl), ?_⟩
      · simp only [session]
        rfl
      · apply State.eq_of_fields <;> simp [State.halting]

end Sys2Proof.Machine

/-! PROOF. The monitor's and the watchdogs' part of an accepted line (chapter 3). -/

namespace Sys2Proof.Machine

/-! ## The watchdogs' part (R51, R64) -/

theorem State.watchLine_playing {s : State} (playing : s.session.state = .playing) : s.watchLine = s.startStallTimer := by
  unfold State.watchLine; rw [playing]

theorem State.watchLine_stalled {s : State} (stalled : s.session.state = .stalled) :
    s.watchLine = s.reportStallEnd .noLines := by
  unfold State.watchLine; rw [stalled]

theorem State.watchLine_idle {s : State} (notPlaying : s.session.state ≠ .playing) (notStalled : s.session.state ≠ .stalled) :
    s.watchLine = s := by
  unfold State.watchLine
  cases state : s.session.state with
  | playing => exact absurd state notPlaying
  | stalled => exact absurd state notStalled
  | noRoll | loaded | starting | paused | returning => rfl

/-- Outside STALLED the watchdogs act on the stall timer at most, and on that in PLAYING. -/
theorem State.watchLine_timer {s : State} (notStalled : s.session.state ≠ .stalled) :
    s.watchLine = { s with stallTimer :=
      if s.session.state = .playing then some (s.clock + BitVec.ofNat 32 s.timing.stallTimeout) else s.stallTimer } := by
  by_cases playing : s.session.state = .playing
  · rw [State.watchLine_playing playing, if_pos playing]
    rfl
  · rw [State.watchLine_idle playing notStalled, if_neg playing]

/-! ## The monitor's part (R44, R45) -/

theorem State.monitorLine_still {s : State} (still : ¬(s.session.state = .starting ∨ s.session.state = .playing)) (m : Mark)
    (opened : Bool) : s.monitorLine m opened = s := by
  unfold State.monitorLine
  rw [if_neg (by rw [SessionState.isRunning_iff]; exact still)]

theorem State.monitorLine_anchors {s : State} (running : s.session.state = .starting ∨ s.session.state = .playing) (m : Mark)
    {opened : Bool} (anchors : s.speed.anchor = none ∨ opened = true) : s.monitorLine m opened = s.setAnchor m := by
  unfold State.monitorLine
  rw [if_pos ((SessionState.isRunning_iff _).mpr running)]
  cases anchor : s.speed.anchor with
  | none => rfl
  | some a =>
    rcases anchors with none | rfl
    · rw [anchor] at none; cases none
    · rfl

theorem State.monitorLine_near {s : State} (running : s.session.state = .starting ∨ s.session.state = .playing) {m a : Mark}
    (anchor : s.speed.anchor = some a) (near : (m.position - a.position).toNat < 32) : s.monitorLine m false = s := by
  unfold State.monitorLine
  rw [if_pos ((SessionState.isRunning_iff _).mpr running), anchor]
  simp only [Bool.false_eq_true, if_false, if_pos near]

theorem State.monitorLine_measures {s : State} (running : s.session.state = .starting ∨ s.session.state = .playing) {m a : Mark}
    (anchor : s.speed.anchor = some a) (far : 32 ≤ (m.position - a.position).toNat) :
    s.monitorLine m false = (s.setAnchor m).measure (m.position - a.position).toNat (m.time - a.time).toNat := by
  unfold State.monitorLine
  rw [if_pos ((SessionState.isRunning_iff _).mpr running), anchor]
  simp only [Bool.false_eq_true, if_false, if_neg (Nat.not_lt.mpr far), elapsed]

/-! ## Measurements (R45 to R48) -/

theorem State.measure_discarded {s : State} {k T : Nat} (discarded : T = 0 ∨ 1000000 < T) : s.measure k T = s := by
  unfold State.measure
  exact if_pos discarded

/-- The state with the figures of a measurement formed, before it is judged (R46). -/
def State.formed (s : State) (k T : Nat) : State :=
  { s with speed := s.speed.measured (ratio k T s.speed.targetRate) s.timing.speedTolerance }

/-- The measurement of k lines in T microseconds is in band (R46). -/
def State.measuresGood (s : State) (k T : Nat) : Bool := inBand (ratio k T s.speed.targetRate) s.timing.speedTolerance

theorem State.measure_starting {s : State} {k T : Nat} (formed : ¬(T = 0 ∨ 1000000 < T)) (starting : s.session.state = .starting) :
    s.measure k T = (s.formed k T).judgeStarting (s.measuresGood k T) := by
  unfold State.measure
  rw [if_neg formed]
  simp only [starting]
  rfl

theorem State.measure_playing {s : State} {k T : Nat} (formed : ¬(T = 0 ∨ 1000000 < T)) (playing : s.session.state = .playing) :
    s.measure k T = (s.formed k T).judgePlaying (s.measuresGood k T) := by
  unfold State.measure
  rw [if_neg formed]
  simp only [playing]
  rfl

theorem State.judgeStarting_bad (s : State) : s.judgeStarting false = { s with speed := { s.speed with inBandRun := 0 } } := rfl

theorem State.judgeStarting_counts {s : State} (early : s.speed.inBandRun < 2) :
    s.judgeStarting true = { s with speed := { s.speed with inBandRun := s.speed.inBandRun + 1 } } := by
  unfold State.judgeStarting
  rw [if_pos rfl, if_neg (by omega)]

/-- The monitor at the moment of the lock (R47). -/
def Speed.locks (m : Speed) : Speed := { m with inBandRun := 3, outBandRun := 0, condition := .locked }

theorem State.judgeStarting_locks {s : State} (third : 2 ≤ s.speed.inBandRun) :
    s.judgeStarting true = ({ s with speed := s.speed.locks } : State).lock := by
  unfold State.judgeStarting
  rw [if_pos rfl, if_pos (by omega)]
  rfl

theorem State.judgePlaying_recovers {s : State} (off : s.speed.condition = .offSpeed) :
    s.judgePlaying true = ({ s with speed := { s.speed with condition := .locked, outBandRun := 0 } } : State).raise .speed := by
  unfold State.judgePlaying
  rw [if_pos rfl, if_pos off]

theorem State.judgePlaying_good {s : State} (on : s.speed.condition ≠ .offSpeed) :
    s.judgePlaying true = { s with speed := { s.speed with outBandRun := 0 } } := by
  unfold State.judgePlaying
  rw [if_pos rfl, if_neg on]

theorem State.judgePlaying_off {s : State} (off : s.speed.condition = .offSpeed) : s.judgePlaying false = s := by
  unfold State.judgePlaying
  rw [if_neg (by decide), if_pos off]

theorem State.judgePlaying_counts {s : State} (on : s.speed.condition ≠ .offSpeed) (early : s.speed.outBandRun < 3) :
    s.judgePlaying false = { s with speed := { s.speed with outBandRun := s.speed.outBandRun + 1 } } := by
  unfold State.judgePlaying
  rw [if_neg (by decide), if_neg on, if_neg (by omega)]

theorem State.judgePlaying_leaves {s : State} (on : s.speed.condition ≠ .offSpeed) (fourth : 3 ≤ s.speed.outBandRun) :
    s.judgePlaying false =
      ({ s with speed := { s.speed with condition := .offSpeed, outBandRun := 0 } } : State).raise .speed := by
  unfold State.judgePlaying
  rw [if_neg (by decide), if_neg on, if_pos (by omega)]

/-! ## The session through the monitor's part -/

theorem State.lock_session (s : State) : s.lock.session = { s.session with state := .playing, causes := CauseSet.empty } := by
  simp [State.lock]

theorem State.lock_speed (s : State) : s.lock.speed = s.speed := by simp [State.lock, SessionState.isRunning]

theorem State.judgePlaying_session (s : State) (good : Bool) : (s.judgePlaying good).session = s.session := by
  unfold State.judgePlaying
  (repeat' split) <;> rfl

/-- The session stands, or a lock took it from STARTING to PLAYING. -/
def State.StaysOrLocks (s t : State) : Prop :=
  t.session = s.session ∨
    s.session.state = .starting ∧ t.session = { s.session with state := .playing, causes := CauseSet.empty }

theorem State.judgeStarting_staysOrLocks {s : State} (starting : s.session.state = .starting) (good : Bool) :
    s.StaysOrLocks (s.judgeStarting good) := by
  unfold State.judgeStarting
  split
  · split
    · exact .inr ⟨starting, State.lock_session _⟩
    · exact .inl rfl
  · exact .inl rfl

theorem State.StaysOrLocks.of_session {s u t : State} (moved : u.StaysOrLocks t) (same : u.session = s.session) :
    s.StaysOrLocks t := by
  unfold State.StaysOrLocks at moved ⊢
  rw [← same]
  exact moved

theorem State.formed_session (s : State) (k T : Nat) : (s.formed k T).session = s.session := by
  unfold State.formed
  generalize s.speed.measured _ _ = m
  rfl

theorem State.measure_staysOrLocks {s : State} (running : s.session.state = .starting ∨ s.session.state = .playing) (k T : Nat) :
    s.StaysOrLocks (s.measure k T) := by
  by_cases discarded : T = 0 ∨ 1000000 < T
  · rw [State.measure_discarded discarded]
    exact .inl rfl
  · rcases running with starting | playing
    · rw [State.measure_starting discarded starting]
      exact (State.judgeStarting_staysOrLocks (by rw [State.formed_session, starting]) _).of_session (s.formed_session k T)
    · rw [State.measure_playing discarded playing]
      exact .inl ((State.judgePlaying_session _ _).trans (s.formed_session k T))

theorem State.monitorLine_staysOrLocks (s : State) (m : Mark) (opened : Bool) : s.StaysOrLocks (s.monitorLine m opened) := by
  unfold State.monitorLine
  split
  · rename_i runs
    split
    · exact .inl rfl
    · split
      · exact .inl rfl
      · dsimp only
        split
        · exact .inl rfl
        · exact State.measure_staysOrLocks (s := s.setAnchor m) ((SessionState.isRunning_iff _).mp runs) _ _
  · exact .inl rfl

theorem State.StaysOrLocks.notStalled {s t : State} (moved : s.StaysOrLocks t) (notStalled : s.session.state ≠ .stalled) :
    t.session.state ≠ .stalled := by
  rcases moved with same | ⟨-, locked⟩
  · rw [same]; exact notStalled
  · rw [locked]; nofun

end Sys2Proof.Machine

/-! PROOF. The accepted line (chapters 1, 3 and 4). -/

namespace Sys2Proof.Machine

/-! ## The end of a cause, by what is left (R59, R64) -/

/-- An intake that the end of a cause leaves in RETURNING is OFF and empty (R18, R59). -/
theorem State.reportStallEnd_returning {s : State} {c : StallCause} (stalled : s.session.state = .stalled)
    (returns : (s.reportStallEnd c).session.state = .returning) :
    (s.reportStallEnd c).intake = { s.intake with state := .off, queue := [], decode := none } := by
  by_cases held : s.session.causes.holds c = true
  · by_cases last : s.session.causes.remove c = CauseSet.empty
    · rw [State.reportStallEnd_last stalled held last] at returns ⊢
      generalize hu : ({ s with session := { s.session with causes := CauseSet.empty } } : State) = u at *
      have intake : u.intake = s.intake := by rw [← hu]
      obtain ⟨-, -, -, -, leads⟩ := u.enterStarting_spec
      unfold State.StartsFrom at leads
      split at leads
      · rw [leads.2.2, intake]
      · split at leads
        · rw [leads.1] at returns; cases returns
        · rw [leads.1] at returns; cases returns
    · rw [State.reportStallEnd_remaining stalled held last] at returns
      rw [show s.session.state = .returning from returns] at stalled
      cases stalled
  · rw [State.reportStallEnd_unheld fun _ => by simpa using held, stalled] at returns
    cases returns

/-- What is left of NO_LINES' set is empty exactly when neither other cause is held. -/
theorem CauseSet.remove_noLines_eq_empty_iff (c : CauseSet) :
    c.remove .noLines = CauseSet.empty ↔ ¬(c.tracking = true ∨ c.intakeHalt = true) := by
  obtain ⟨noLines, tracking, intakeHalt⟩ := c
  cases tracking <;> cases intakeHalt <;> simp [CauseSet.remove, CauseSet.empty]

/-! ## The accepted line in the queue (R5, R15, R44, R51, R64) -/

/-- Monitor and watchdogs leave the intake of an accepted line alone unless the session is STALLED. -/
theorem State.watched_intake {s : State} (notStalled : s.session.state ≠ .stalled) (m : Mark) (opened : Bool) :
    (s.monitorLine m opened).watchLine.intake = s.intake := by
  rw [State.watchLine_timer ((s.monitorLine_staysOrLocks m opened).notStalled notStalled)]
  simp

theorem State.watched_stalled {s : State} (stalled : s.session.state = .stalled) (m : Mark) (opened : Bool) :
    (s.monitorLine m opened).watchLine = s.reportStallEnd .noLines := by
  rw [State.monitorLine_still (by simp [stalled]), State.watchLine_stalled stalled]

theorem State.watched_playing {s : State} (playing : s.session.state = .playing) (m : Mark) (opened : Bool) :
    (s.monitorLine m opened).watchLine.stallTimer = some (s.clock + BitVec.ofNat 32 s.timing.stallTimeout) := by
  have stays : (s.monitorLine m opened).session.state = .playing := by
    rcases s.monitorLine_staysOrLocks m opened with same | ⟨starting, -⟩
    · rw [same, playing]
    · rw [playing] at starting; cases starting
  rw [State.watchLine_timer (by rw [stays]; decide), if_pos stays]
  simp

/-- The watchdogs leave monitor and session alone while the session runs. -/
theorem State.watchLine_running {s : State} (running : s.session.state = .starting ∨ s.session.state = .playing) :
    s.watchLine.speed = s.speed ∧ s.watchLine.session = s.session := by
  rw [State.watchLine_timer (by rcases running with state | state <;> simp [state])]
  exact ⟨rfl, rfl⟩

/-- The slots stand through an accepted line's frame. -/
theorem KeepsSlots.accepted (s : State) (h : Head) (line : Line) (d : Nat) (m : Mark) (opened : Bool) :
    KeepsSlots s ((State.joining s h line d).monitorLine m opened).watchLine := by
  refine KeepsSlots.trans ?_ ((KeepsSlots.monitorLine _ m opened).trans (KeepsSlots.watchLine _))
  intro l
  obtain ⟨-, -, -, -, -, -, -, -, links⟩ := State.joining_fields s h line d
  rw [links, State.link_heard]
  split <;> rfl

/-- Settles O15: the line joins the queue (`State.joining`), and what follows acts by the session state. -/
theorem acceptedLineJoinsTheQueue : Obligations.AcceptedLineJoinsTheQueue := by
  intro h index left right flags photosites d position joined s ht accepting room placed hj
  have run := exec_scanLine_placed (b := left) (c := right) (d := flags) (ph := photosites) ht accepting room placed
  obtain ⟨session, speed, clock, timing, stall, startup, tracker, intake, links⟩ :=
    State.joining_fields s h (scanned index left right flags photosites s.clock position) d
  have slots := KeepsSlots.accepted s h (scanned index left right flags photosites s.clock position) d ⟨position, s.clock⟩
    s.intake.expected.isNone
  have raises := State.joining_raises s h (scanned index left right flags photosites s.clock position) d
  have writes : { State.joining s h (scanned index left right flags photosites s.clock position) d with
      linkT := s.linkT, linkC := s.linkC, linkS := s.linkS, intake := s.intake } = s := by
    apply State.eq_of_fields <;> simp [State.joining]
  rw [← hj] at intake
  generalize State.joining s h (scanned index left right flags photosites s.clock position) d = u at *
  refine ⟨_, run, slots .T, ?intake, ?returns, State.lineReady_iff _, ?playing, fun running => ⟨?anchors, ?near⟩, ?idle⟩
  case intake =>
    intro stays
    rw [← session] at stays
    rw [← intake]
    by_cases stalled : u.session.state = .stalled
    · have notReturning := stays.resolve_left (not_not_intro stalled)
      rw [State.watched_stalled stalled] at notReturning ⊢
      exact u.reportStallEnd_intake .noLines notReturning
    · exact State.watched_intake stalled _ _
  case returns =>
    intro stalled returns
    rw [← session] at stalled
    rw [State.watched_stalled stalled] at returns ⊢
    rw [State.reportStallEnd_returning stalled returns, intake]
  case playing =>
    intro playing
    rw [State.watched_playing (by rw [session, playing]), clock, timing]
  case anchors =>
    intro anchors
    rw [← session] at running
    have anchored := State.monitorLine_anchors running ⟨position, s.clock⟩ (opened := s.intake.expected.isNone)
      (by rw [speed]; simpa using anchors)
    rw [anchored]
    obtain ⟨speed', session'⟩ := (u.setAnchor ⟨position, s.clock⟩).watchLine_running running
    rw [speed', session', ← speed, ← session]
    exact ⟨rfl, rfl⟩
  case near =>
    intro a anchor continued near
    rw [← session] at running
    have opened : s.intake.expected.isNone = false := by simpa [Option.isNone_iff_eq_none, Bool.eq_false_iff] using continued
    rw [opened, State.monitorLine_near running (by rw [speed]; exact anchor) near]
    obtain ⟨speed', session'⟩ := u.watchLine_running running
    exact ⟨speed'.trans speed, session'.trans session⟩
  case idle =>
    intro still unheld
    have unwatched : (u.monitorLine ⟨position, s.clock⟩ s.intake.expected.isNone).watchLine = u := by
      rw [State.monitorLine_still (by rw [session]; simpa using still)]
      by_cases stalled : u.session.state = .stalled
      · rw [State.watchLine_stalled stalled]
        refine State.reportStallEnd_unheld fun _ => ?_
        rw [session] at stalled ⊢
        exact unheld stalled
      · refine State.watchLine_idle (fun playing => still ?_) stalled
        rw [← session, playing]
        simp
    rw [unwatched]
    exact ⟨Hears.of_raises raises, writes⟩

/-- Settles O16: the line ends NO_LINES by `State.reportStallEnd`'s two cases. -/
theorem acceptedLineEndsNoLines : Obligations.AcceptedLineEndsNoLines := by
  intro h index left right flags photosites d position s ht accepting room placed stalled held
  have run := exec_scanLine_placed (b := left) (c := right) (d := flags) (ph := photosites) ht accepting room placed
  obtain ⟨session, speed, clock, timing, stall, startup, tracker, intake, links⟩ :=
    State.joining_fields s h (scanned index left right flags photosites s.clock position) d
  have raises := State.joining_raises s h (scanned index left right flags photosites s.clock position) d
  have silenced {t : State} (silences : Silences (State.joining s h (scanned index left right flags photosites s.clock position) d) t) :
      Silences s t := silences.of_same (by simp [State.joining]) (by simp [State.joining]) (by simp [State.joining])
    (by simp [State.joining]) (by simp [State.joining]) (by simp [State.joining]) (by simp [State.joining])
    (by simp [State.joining])
  generalize State.joining s h (scanned index left right flags photosites s.clock position) d = u at *
  rw [State.watched_stalled (by rw [session, stalled])] at run
  have stalled' : u.session.state = .stalled := by rw [session, stalled]
  have held' : u.session.causes.holds .noLines = true := by rw [session]; exact held
  refine ⟨_, run, ?_⟩
  by_cases others : s.session.causes.tracking = true ∨ s.session.causes.intakeHalt = true
  · have remaining : u.session.causes.remove .noLines ≠ CauseSet.empty := by
      rw [session, ne_eq, CauseSet.remove_noLines_eq_empty_iff]
      exact not_not_intro others
    rw [if_pos others, State.reportStallEnd_remaining stalled' held' remaining]
    refine ⟨Hears.of_raises (raises.keep rfl rfl rfl), ?_, speed⟩
    rw [session]
    rfl
  · have last : u.session.causes.remove .noLines = CauseSet.empty := by
      rw [session, CauseSet.remove_noLines_eq_empty_iff]
      exact others
    rw [if_neg others, State.reportStallEnd_last stalled' held' last]
    generalize hv : ({ u with session := { u.session with causes := CauseSet.empty } } : State) = v
    have sessionV : v.session = { s.session with causes := CauseSet.empty } := by rw [← hv, session]
    have trackerV : v.tracker = s.tracker := by rw [← hv]; exact tracker
    have raisesV : Raises (s.heard h) v 0#8 := by rw [← hv]; exact raises.keep rfl rfl rfl
    obtain ⟨raises', silences, speed', -, leads⟩ := v.enterStarting_spec
    have state := v.enterStarting_state
    rw [State.StartsFrom, sessionV, trackerV] at leads
    rw [sessionV, trackerV] at state
    split
    · rename_i clear
      obtain ⟨unconfirmed, found⟩ := clear
      rw [if_neg (by simp [unconfirmed]), if_neg found] at leads
      refine ⟨Hears.of_raises (raisesV.trans raises'), leads.1, ?_, ?_, ?_⟩
      · refine silenced (silences.of_same ?_ ?_ ?_ ?_ ?_ ?_ ?_ ?_)
        iterate 8 rw [← hv]
      · rw [leads.2.1, ← clock, ← hv]
      · rw [speed', ← speed, ← hv]
    · rename_i blocked
      rw [state]
      split
      · rfl
      · rename_i unconfirmed
        have lost : s.tracker.state = .lost := by
          by_contra found
          exact blocked ⟨by simpa using unconfirmed, found⟩
        rw [if_pos lost]

end Sys2Proof.Machine

/-! PROOF. Measurements (section 3.4). -/

namespace Sys2Proof.Machine

/-! ## The figures of a measurement (R46) -/

theorem inBand_iff (q tolerance : Nat) : inBand q tolerance = true ↔ (1000 - (q : Int)).natAbs ≤ tolerance := decide_eq_true_iff

theorem Speed.measured_eq (m : Speed) (q tolerance : Nat) :
    m.measured q tolerance =
      { m with lastRatio := q, trim := max (-125) (min 125 (1000 - (q : Int)))
               outOfBand := if inBand q tolerance then m.outOfBand else bump m.outOfBand 1 } := by
  rw [Speed.measured, trimOf, clampInt_eq _ _ _ (by decide), satAdd_eq_bump]

/-- A measurement writes nothing but figures of the monitor. -/
theorem State.formed_eq (s : State) (k T : Nat) :
    s.formed k T = { s with speed := s.speed.measured (ratio k T s.speed.targetRate) s.timing.speedTolerance } := rfl

/-- The anchor and the figures that R46 forms stand from one monitor to the other. -/
structure Speed.SameFigures (m m' : Speed) : Prop where
  anchor : m'.anchor = m.anchor
  lastRatio : m'.lastRatio = m.lastRatio
  trim : m'.trim = m.trim
  outOfBand : m'.outOfBand = m.outOfBand

theorem State.judgeStarting_figures (s : State) (good : Bool) : s.speed.SameFigures (s.judgeStarting good).speed := by
  unfold State.judgeStarting
  split
  · split
    · rw [State.lock_speed]; exact ⟨rfl, rfl, rfl, rfl⟩
    · exact ⟨rfl, rfl, rfl, rfl⟩
  · exact ⟨rfl, rfl, rfl, rfl⟩

theorem State.judgePlaying_figures (s : State) (good : Bool) : s.speed.SameFigures (s.judgePlaying good).speed := by
  unfold State.judgePlaying
  (repeat' split) <;> exact ⟨rfl, rfl, rfl, rfl⟩

/-- The monitor, the session and the links after a judgement in PLAYING, by the condition and the run it finds (R48). -/
theorem State.judgePlaying_spec (s : State) (good : Bool) :
    (s.speed.condition = .offSpeed → good = true → (s.judgePlaying good).speed.condition = .locked ∧
      (s.judgePlaying good).speed.outBandRun = 0 ∧ Raises s (s.judgePlaying good) 0x02#8) ∧
    (s.speed.condition = .offSpeed → good = false → (s.judgePlaying good).speed.condition = .offSpeed ∧
      (s.judgePlaying good).speed.outBandRun = s.speed.outBandRun ∧ Raises s (s.judgePlaying good) 0#8) ∧
    (s.speed.condition = .locked → good = true → (s.judgePlaying good).speed.condition = .locked ∧
      (s.judgePlaying good).speed.outBandRun = 0 ∧ Raises s (s.judgePlaying good) 0#8) ∧
    (s.speed.condition = .locked → good = false → s.speed.outBandRun < 3 → (s.judgePlaying good).speed.condition = .locked ∧
      (s.judgePlaying good).speed.outBandRun = s.speed.outBandRun + 1 ∧ Raises s (s.judgePlaying good) 0#8) ∧
    (s.speed.condition = .locked → good = false → 3 ≤ s.speed.outBandRun → (s.judgePlaying good).speed.condition = .offSpeed ∧
      (s.judgePlaying good).speed.outBandRun = 0 ∧ Raises s (s.judgePlaying good) 0x02#8) := by
  have on (locked : s.speed.condition = .locked) : s.speed.condition ≠ .offSpeed := by rw [locked]; decide
  refine ⟨?_, ?_, ?_, ?_, ?_⟩
  · rintro off rfl
    rw [State.judgePlaying_recovers off]
    exact ⟨rfl, rfl, (Raises.none rfl rfl rfl).raise .speed⟩
  · rintro off rfl
    rw [State.judgePlaying_off off]
    exact ⟨off, rfl, .refl s⟩
  · rintro locked rfl
    rw [State.judgePlaying_good (on locked)]
    exact ⟨locked, rfl, .none rfl rfl rfl⟩
  · rintro locked rfl early
    rw [State.judgePlaying_counts (on locked) early]
    exact ⟨locked, rfl, .none rfl rfl rfl⟩
  · rintro locked rfl fourth
    rw [State.judgePlaying_leaves (on locked) fourth]
    exact ⟨rfl, rfl, (Raises.none rfl rfl rfl).raise .speed⟩

/-- The monitor and the session after a judgement in STARTING, by the run it finds (R47). -/
theorem State.judgeStarting_spec (s : State) (good : Bool) :
    (good = false → (s.judgeStarting good).speed.inBandRun = 0 ∧ (s.judgeStarting good).session = s.session) ∧
    (good = true → s.speed.inBandRun < 2 → (s.judgeStarting good).speed.inBandRun = s.speed.inBandRun + 1 ∧
      (s.judgeStarting good).session = s.session) ∧
    (good = true → 2 ≤ s.speed.inBandRun → (s.judgeStarting good).speed.condition = .locked ∧
      (s.judgeStarting good).speed.outBandRun = 0 ∧
      (s.judgeStarting good).session = { s.session with state := .playing, causes := CauseSet.empty }) := by
  refine ⟨?_, ?_, ?_⟩
  · rintro rfl
    rw [State.judgeStarting_bad]
    exact ⟨rfl, rfl⟩
  · rintro rfl early
    rw [State.judgeStarting_counts early]
    exact ⟨rfl, rfl⟩
  · rintro rfl third
    rw [State.judgeStarting_locks third, State.lock_speed, State.lock_session]
    exact ⟨rfl, rfl, rfl⟩

/-! ## The measured line (R44 to R48, R51) -/

/-- The state in which a measured line is judged: the line joined, the anchor on it. -/
def State.measuring (s : State) (h : Head) (line : Line) (d : Nat) : State :=
  (State.joining s h line d).setAnchor ⟨line.position, line.stamp⟩

theorem State.measuring_fields (s : State) (h : Head) (line : Line) (d : Nat) :
    (s.measuring h line d).speed = { s.speed with anchor := some ⟨line.position, line.stamp⟩ } ∧
      (s.measuring h line d).session = s.session ∧ (s.measuring h line d).clock = s.clock ∧
      (s.measuring h line d).timing = s.timing ∧ Raises (s.heard h) (s.measuring h line d) 0#8 ∧
      { s.measuring h line d with
        linkT := s.linkT, linkC := s.linkC, linkS := s.linkS, intake := s.intake, speed := s.speed } = s := by
  refine ⟨?_, ?_, ?_, ?_, .none rfl rfl rfl, ?_⟩
  · simp [State.measuring, State.setAnchor, State.joining]
  · simp [State.measuring, State.setAnchor, State.joining]
  · simp [State.measuring, State.setAnchor, State.joining]
  · simp [State.measuring, State.setAnchor, State.joining]
  · apply State.eq_of_fields <;> simp [State.measuring, State.setAnchor, State.joining]

/-- A line 32 or more positions past the anchor is measured against it (R45). -/
theorem exec_scanLine_measured {h : Head} {index left right : BitVec 16} {flags : BitVec 8} {photosites : BitVec 256}
    {e : LineIndex} {a : Mark} {position : Position} {s : State} (ht : s.takes h [.T] 39)
    (accepting : s.intake.state = .accepting) (room : s.intake.queue.length < 16) (expected : s.intake.expected = some e)
    (placed : s.placesLine index (index - e).toNat position) (anchor : s.speed.anchor = some a)
    (far : 32 ≤ (position - a.position).toNat) (running : s.session.state = .starting ∨ s.session.state = .playing) :
    exec (.scanLine h index left right flags photosites) s =
      .next (((s.measuring h (scanned index left right flags photosites s.clock position) (index - e).toNat).measure
        (position - a.position).toNat (s.clock - a.time).toNat).watchLine) := by
  obtain ⟨session, speed, -⟩ :=
    State.joining_fields s h (scanned index left right flags photosites s.clock position) (index - e).toNat
  have run := exec_scanLine_placed (b := left) (c := right) (d := flags) (ph := photosites) ht accepting room placed
  rw [expected, Option.isNone_some, State.monitorLine_measures (a := a) (by rw [session]; exact running)
    (by rw [speed]; exact anchor) far] at run
  exact run

/-- The watchdogs after a judgement leave everything but the stall timer. -/
theorem State.watchLine_judged {s t : State} (running : s.session.state = .starting ∨ s.session.state = .playing)
    (moved : s.StaysOrLocks t) :
    t.watchLine = { t with stallTimer :=
      if t.session.state = .playing then some (t.clock + BitVec.ofNat 32 t.timing.stallTimeout) else t.stallTimer } :=
  State.watchLine_timer (moved.notStalled (by rcases running with state | state <;> simp [state]))

/-- What the formed figures leave of the monitor: its runs, its condition and its anchor (R46). -/
theorem State.formed_fields (s : State) (k T : Nat) :
    (s.formed k T).speed = s.speed.measured (ratio k T s.speed.targetRate) s.timing.speedTolerance ∧
      (s.formed k T).session = s.session ∧ Raises s (s.formed k T) 0#8 := by
  rw [State.formed_eq]
  generalize s.speed.measured _ _ = m
  exact ⟨rfl, rfl, .none rfl rfl rfl⟩

/-- The judged state of a formed measurement, in STARTING and in PLAYING. -/
theorem State.measure_figures {s : State} {k T : Nat} (formed : ¬(T = 0 ∨ 1000000 < T))
    (running : s.session.state = .starting ∨ s.session.state = .playing) :
    (s.formed k T).speed.SameFigures (s.measure k T).speed := by
  rcases running with starting | playing
  · rw [State.measure_starting formed starting]
    exact State.judgeStarting_figures _ _
  · rw [State.measure_playing formed playing]
    exact State.judgePlaying_figures _ _

/-- Settles O17: the line is measured from `State.measuring`, and judged by `State.judgeStarting_spec` and
`State.judgePlaying_spec`. -/
theorem measurementMovesTheSpeedMonitor : Obligations.MeasurementMovesTheSpeedMonitor := by
  rintro h index left right flags photosites e a position k T q s ht accepting room expected placed anchor rfl far rfl hq running
  have run := exec_scanLine_measured (left := left) (right := right) (flags := flags) (photosites := photosites) ht accepting
    room expected placed anchor far running
  obtain ⟨speed, session, clock, timing, raises, writes⟩ :=
    s.measuring_fields h (scanned index left right flags photosites s.clock position) (index - e).toNat
  change _ = { s.speed with anchor := some ⟨position, s.clock⟩ } at speed
  generalize s.measuring h (scanned index left right flags photosites s.clock position) (index - e).toNat = u at *
  generalize hk : (position - a.position).toNat = k at *
  generalize hT : (s.clock - a.time).toNat = T at *
  have hq : ratio k T u.speed.targetRate = q := by rw [hq, speed]; rfl
  have running' : u.session.state = .starting ∨ u.session.state = .playing := by rw [session]; exact running
  have watched := State.watchLine_judged running' (State.measure_staysOrLocks running' k T)
  have good_eq : u.measuresGood k T = inBand q s.timing.speedTolerance := by rw [State.measuresGood, hq, timing]
  obtain ⟨figures, stays, quiet⟩ := u.formed_fields k T
  rw [hq, timing, speed, Speed.measured_eq] at figures
  have speed' : (u.measure k T).watchLine.speed = (u.measure k T).speed := by rw [watched]
  have session' : (u.measure k T).watchLine.session = (u.measure k T).session := by rw [watched]
  have heard {kinds : BitVec 8} (moved : Raises (u.formed k T) (u.measure k T) kinds) :
      Hears s (u.measure k T).watchLine h kinds := by
    rw [watched]
    refine Hears.of_raises (Raises.keep (t := u.measure k T) ?_ rfl rfl rfl)
    simpa using (raises.trans quiet).trans moved
  refine ⟨_, inBand q s.timing.speedTolerance = true, run, inBand_iff _ _, ?anchor, ?discarded, ?formed⟩
  case anchor =>
    rw [speed']
    by_cases discarded : T = 0 ∨ 1000000 < T
    · rw [State.measure_discarded discarded, speed]
    · rw [(State.measure_figures discarded running').anchor, figures]
  case discarded =>
    intro discarded
    rw [State.measure_discarded discarded] at watched speed' session' ⊢
    rw [speed', session', watched]
    refine ⟨speed, session, Hears.of_raises (raises.keep rfl rfl rfl), ?_⟩
    rw [← writes]
  case formed =>
    intro positive brief
    have formed : ¬(T = 0 ∨ 1000000 < T) := by omega
    have kept := State.measure_figures (k := k) formed running'
    rw [speed', session', kept.lastRatio, kept.trim, kept.outOfBand, figures]
    refine ⟨rfl, rfl, fun good => if_pos good, fun bad => if_neg bad, fun starting => ?_, fun playing => ?_⟩
    · obtain ⟨bad, counts, locks⟩ := (u.formed k T).judgeStarting_spec (inBand q s.timing.speedTolerance)
      rw [State.measure_starting formed (by rw [session, starting]), good_eq]
      rw [stays, session] at bad counts locks
      rw [figures] at counts locks
      exact ⟨fun h => bad (by simpa using h), counts, locks⟩
    · have playing' : u.session.state = .playing := by rw [session, playing]
      have judged := State.measure_playing (k := k) formed playing'
      have same : (u.measure k T).session = s.session := by
        rw [judged, State.judgePlaying_session, stays, session]
      obtain ⟨recovers, off, good, counts, leaves⟩ := (u.formed k T).judgePlaying_spec (inBand q s.timing.speedTolerance)
      rw [← good_eq, ← judged, good_eq, figures] at recovers off good counts leaves
      refine ⟨same, ?_, fun c g => ?_, fun c b => ?_, fun c g => ?_, fun c b early => ?_, fun c b fourth => ?_⟩
      · rw [watched, same, if_pos playing]
        simp [clock, timing]
      · obtain ⟨condition, run, moved⟩ := recovers c g
        exact ⟨condition, run, heard moved⟩
      · obtain ⟨condition, run, moved⟩ := off c (by simpa using b)
        exact ⟨condition, run, heard moved⟩
      · obtain ⟨condition, run, moved⟩ := good c g
        exact ⟨condition, run, heard moved⟩
      · obtain ⟨condition, run, moved⟩ := counts c (by simpa using b) early
        exact ⟨condition, run, heard moved⟩
      · obtain ⟨condition, run, moved⟩ := leaves c (by simpa using b) fourth
        exact ⟨condition, run, heard moved⟩

end Sys2Proof.Machine

/-! PROOF. Onsets one after another (chapter 6). -/

namespace Sys2Proof.Machine

/-! ## Onsets one after another (R61, R103) -/

/-- An onset in PLAYING records its key as the note's struck key and leaves the other notes' (R103). -/
theorem State.noteOnset_struckKeys {s : State} (playing : s.session.state = .playing) (t : Timing) (c : Console)
    (n : NoteTrack) (onset : Time) :
    (s.noteOnset t c n onset).struckKeys = s.struckKeys.set n (some (s.chosenKey c n)) := by
  unfold State.noteOnset
  rw [if_pos playing]
  simp [State.scheduleOnset]

/-- Onsets of a list of note tracks at one time with one group of settings. -/
def State.onsets (s : State) (t : Timing) (c : Console) (onset : Time) (notes : List NoteTrack) : State :=
  notes.foldl (fun u n => u.noteOnset t c n onset) s

theorem State.onsets_cons (s : State) (t : Timing) (c : Console) (onset : Time) (n : NoteTrack) (notes : List NoteTrack) :
    s.onsets t c onset (n :: notes) = (s.noteOnset t c n onset).onsets t c onset notes := rfl

@[simp] theorem State.onsets_frame (s : State) (t : Timing) (c : Console) (onset : Time) (notes : List NoteTrack) :
    (s.onsets t c onset notes).clock = s.clock ∧ (s.onsets t c onset notes).intake = s.intake ∧
    (s.onsets t c onset notes).tracker = s.tracker ∧ (s.onsets t c onset notes).detectors = s.detectors ∧
    (s.onsets t c onset notes).speed = s.speed ∧ (s.onsets t c onset notes).stallTimer = s.stallTimer ∧
    (s.onsets t c onset notes).startupTimer = s.startupTimer ∧ (s.onsets t c onset notes).session = s.session ∧
    (s.onsets t c onset notes).shaping = s.shaping ∧ (s.onsets t c onset notes).expressionDeadline = s.expressionDeadline ∧
    (s.onsets t c onset notes).console = s.console ∧ (s.onsets t c onset notes).calibration = s.calibration ∧
    (s.onsets t c onset notes).timing = s.timing ∧ (s.onsets t c onset notes).slots = s.slots ∧
    (s.onsets t c onset notes).pedals = s.pedals ∧ (s.onsets t c onset notes).drive = s.drive ∧
    (s.onsets t c onset notes).frameDeadline = s.frameDeadline ∧
    (s.onsets t c onset notes).thermalDeadline = s.thermalDeadline ∧ (s.onsets t c onset notes).freeCount = s.freeCount ∧
    (s.onsets t c onset notes).pending = s.pending := by
  induction notes generalizing s with
  | nil => simp [State.onsets]
  | cons n notes ih => simpa [State.onsets_cons] using ih (s.noteOnset t c n onset)

/-- Onsets in PLAYING leave a struck key on every note of the list and touch no other note's (R103). -/
theorem State.onsets_struckKeys {s : State} (playing : s.session.state = .playing) (t : Timing) (c : Console) (onset : Time)
    (notes : List NoteTrack) (n : NoteTrack) :
    (n ∈ notes → ((s.onsets t c onset notes).struckKeys[n]).isSome = true) ∧
      (n ∉ notes → (s.onsets t c onset notes).struckKeys[n] = s.struckKeys[n]) := by
  induction notes generalizing s with
  | nil => simp [State.onsets]
  | cons m notes ih =>
    obtain ⟨struck, kept⟩ := ih (s := s.noteOnset t c m onset) (by simpa using playing)
    have written := State.noteOnset_struckKeys playing t c m onset
    rw [State.onsets_cons]
    by_cases later : n ∈ notes
    · exact ⟨fun _ => struck later, fun none => absurd (List.mem_cons_of_mem m later) none⟩
    · rw [kept later, written]
      by_cases here : n = m
      · subst here
        simp
      · have apart : (m : Nat) ≠ n := fun same => here (Fin.ext same.symm)
        simp [here, later, Vector.getElem_set_ne _ _ apart]

/-- Onsets beside other links, intake, monitor and timers do the same beside them. -/
theorem State.beside_onsets {b : Bystanders} (hb : b.Neutral) {s : State} (detectors : b.detectors = s.detectors) (t : Timing)
    (c : Console) (onset : Time) (notes : List NoteTrack) :
    (s.beside b).onsets t c onset notes = (s.onsets t c onset notes).beside b := by
  induction notes generalizing s with
  | nil => rfl
  | cons n notes ih =>
    rw [State.onsets_cons, State.beside_noteOnset hb s detectors, ih (by simpa using detectors)]
    rfl

/-- The note tracks that are OPEN, in increasing number. -/
def openNotes (detectors : Vector Detector 101) : List NoteTrack :=
  (List.finRange 88).filter fun n => detectors[noteTrackOf n].isOpen

theorem mem_openNotes {detectors : Vector Detector 101} {n : NoteTrack} :
    n ∈ openNotes detectors ↔ detectors[noteTrackOf n].isOpen = true := by
  simp [openNotes]

/-- The restrike is the onsets of the open note tracks at the lock, with the settings then in force (R61). -/
theorem State.restrike_eq (s : State) : s.restrike = s.onsets s.timing s.console s.clock (openNotes s.detectors) := by
  have tracks (notes : List NoteTrack) (u : State) (timing : u.timing = s.timing) (console : u.console = s.console)
      (clock : u.clock = s.clock) (detectors : u.detectors = s.detectors) :
      notes.foldl State.restrikeTrack u =
        u.onsets s.timing s.console s.clock (notes.filter fun n => s.detectors[noteTrackOf n].isOpen) := by
    induction notes generalizing u with
    | nil => rfl
    | cons n notes ih =>
      rw [List.foldl_cons, List.filter_cons]
      have restruck : u.restrikeTrack n =
          if s.detectors[noteTrackOf n].isOpen then u.noteOnset s.timing s.console n s.clock else u := by
        rw [State.restrikeTrack, State.trackOpen, timing, console, clock, detectors]
      rw [restruck]
      split
      · rw [State.onsets_cons]
        exact ih _ (by simpa using timing) (by simpa using console) (by simpa using clock) (by simpa using detectors)
      · exact ih u timing console clock detectors
  exact tracks _ s rfl rfl rfl rfl

end Sys2Proof.Machine

/-! PROOF. The lock (section 4.3). -/

namespace Sys2Proof.Machine

/-! ## The lock (R60 to R62) -/

/-- A state that differs from another in bystanders only is that state beside them. -/
theorem State.eq_beside {s t : State} {b : Bystanders} (ports : ∀ l, t.link l = b.ports l (s.link l))
    (intake : t.intake = b.intake) (tracker : t.tracker = b.tracker) (detectors : t.detectors = b.detectors)
    (speed : t.speed = b.speed) (stallTimer : t.stallTimer = b.stallTimer) (startupTimer : t.startupTimer = b.startupTimer)
    (others : { t with
      linkT := s.linkT, linkC := s.linkC, linkS := s.linkS, intake := s.intake, tracker := s.tracker
      detectors := s.detectors, speed := s.speed, stallTimer := s.stallTimer, startupTimer := s.startupTimer } = s) :
    t = s.beside b := by
  have linkT := ports .T
  have linkC := ports .C
  have linkS := ports .S
  simp only [State.link] at linkT linkC linkS
  rw [State.beside, ← linkT, ← linkC, ← linkS, ← intake, ← tracker, ← detectors, ← speed, ← stallTimer, ← startupTimer]
  exact congrArg (fun v : State => { v with
    linkT := t.linkT, linkC := t.linkC, linkS := t.linkS, intake := t.intake, tracker := t.tracker
    detectors := t.detectors, speed := t.speed, stallTimer := t.stallTimer, startupTimer := t.startupTimer }) others

theorem State.beside_link (s : State) (b : Bystanders) (l : Link) : (s.beside b).link l = b.ports l (s.link l) := by
  cases l <;> rfl

/-- What a locking line does to a link: its frame ends on its own, and SESSION is raised on each. -/
def lockedPort (s : State) (h : Head) (l : Link) (p : LinkPort) : LinkPort :=
  if l = h.link then
    { p with transaction := .idle, lastOut := clockedOut (s.link l).fixedReply (3 + h.declared.toNat) 0, latch := p.latch ||| 0x01#8 }
  else { p with latch := p.latch ||| 0x01#8 }

theorem lockedPort_raise (s : State) (h : Head) (l : Link) (p : LinkPort) (e : EventKind) :
    lockedPort s h l (p.raise e) = (lockedPort s h l p).raise e := by
  unfold lockedPort LinkPort.raise
  split <;> simp only [BitVec.or_assoc, BitVec.or_comm e.bit]

/-- The blocks that the restrike neither reads nor writes, as a locking line in the state `u` leaves them. -/
def lockBystanders (s u : State) (h : Head) : Bystanders where
  ports := lockedPort s h
  intake := u.intake
  tracker := s.tracker
  detectors := s.detectors
  speed := u.speed
  stallTimer := s.stallTimer
  startupTimer := none

/-- The session moved to PLAYING, and nothing else. -/
def State.asPlaying (s : State) : State := { s with session := { s.session with state := .playing, causes := CauseSet.empty } }

/-- A session in STARTING moves to PLAYING beside the line's own effects on links, intake and monitor. -/
theorem State.moveSession_playing {s u : State} {h : Head} (starting : s.session.state = .starting)
    (raises : Raises (s.heard h) u 0#8)
    (writes : { u with linkT := s.linkT, linkC := s.linkC, linkS := s.linkS, intake := s.intake, speed := s.speed } = s) :
    u.moveSession .playing = s.asPlaying.beside (lockBystanders s u h) := by
  have session : u.session = s.session := by rw [← writes]
  have stall : u.stallTimer = s.stallTimer := by rw [← writes]
  have detectors : u.detectors = s.detectors := by rw [← writes]
  have tracker : u.tracker = s.tracker := by rw [← writes]
  refine State.eq_beside (fun l => ?_) ?_ ?_ ?_ ?_ ?_ ?_ ?_
  · rw [u.moveSession_raises .playing l, raises l, State.link_heard]
    show _ = lockedPort s h l (s.link l)
    unfold lockedPort
    split <;> simp
  · simp [lockBystanders]
  · simp [lockBystanders, tracker]
  · simp [lockBystanders, detectors]
  · simp [lockBystanders, SessionState.isRunning]
  · simp [lockBystanders, session, starting, stall]
  · simp [lockBystanders, session, starting]
  · exact congrArg (fun v : State => { v with
      session := { v.session with state := .playing, causes := CauseSet.empty }, tracker := s.tracker
      detectors := s.detectors, stallTimer := s.stallTimer, startupTimer := s.startupTimer }) writes

/-- The state after the restrike of a lock: the open notes' onsets beside the line's own effects (R61). -/
theorem State.moveSession_restrike {s u : State} {h : Head} (starting : s.session.state = .starting)
    (raises : Raises (s.heard h) u 0#8)
    (writes : { u with linkT := s.linkT, linkC := s.linkC, linkS := s.linkS, intake := s.intake, speed := s.speed } = s) :
    (u.moveSession .playing).restrike =
      (s.asPlaying.onsets s.timing s.console s.clock (openNotes s.detectors)).beside (lockBystanders s u h) := by
  have neutral : (lockBystanders s u h).Neutral := fun l p e => lockedPort_raise s h l p e
  rw [State.moveSession_playing starting raises writes, State.restrike_eq]
  exact State.beside_onsets (s := s.asPlaying) neutral rfl s.timing s.console s.clock (openNotes s.detectors)

theorem State.loadRollPedals_pedals (s : State) :
    s.loadRollPedals.pedals =
      { s.pedals with
        rollDamper := requestOf (s.trackOpen trackDamper), rollSoft := requestOf (s.trackOpen trackSoft)
        mergedDamper := mergePosition s.console.mode (requestOf (s.trackOpen trackDamper)) s.pedals.consoleDamper
        mergedSoft := mergePosition s.console.mode (requestOf (s.trackOpen trackSoft)) (requestOf s.pedals.consoleSoft) } :=
  s.setRollRequests_pedals _ _

theorem State.loadRollPedals_shaping (s : State) :
    s.loadRollPedals.shaping = s.shapingFor s.loadRollPedals.pedals.mergedDamper s.loadRollPedals.pedals.mergedSoft := by
  rw [State.loadRollPedals_pedals]
  exact s.setRollRequests_shaping _ _

theorem State.startStallTimer_again (s : State) : s.startStallTimer.startStallTimer = s.startStallTimer := rfl

/-- A lock reported to the watchdogs starts the stall timer once more, at the same moment (R51, R60). -/
theorem State.watchLine_lock (s : State) :
    s.lock.watchLine = (s.moveSession .playing).restrike.loadRollPedals.startStallTimer := by
  have playing : s.lock.session.state = .playing := by rw [State.lock_session]
  rw [State.watchLine_playing playing, State.lock, State.startStallTimer_again]

/-- A SCAN_LINE that completes the third good measurement in STARTING locks, and its restrike is the onsets of the open notes
beside the line's own effects (R47, R60, R61). -/
theorem exec_scanLine_locks {h : Head} {index left right : BitVec 16} {flags : BitVec 8} {photosites : BitVec 256}
    {e : LineIndex} {a : Mark} {position : Position} {k T : Nat} {s : State} (ht : s.takes h [.T] 39)
    (accepting : s.intake.state = .accepting) (room : s.intake.queue.length < 16) (expected : s.intake.expected = some e)
    (placed : s.placesLine index (index - e).toNat position) (anchor : s.speed.anchor = some a)
    (hk : k = (position - a.position).toNat) (far : 32 ≤ k) (hT : T = (s.clock - a.time).toNat) (positive : 0 < T)
    (brief : T ≤ 1000000) (good : inBand (ratio k T s.speed.targetRate) s.timing.speedTolerance = true)
    (starting : s.session.state = .starting) (third : 2 ≤ s.speed.inBandRun) :
    ∃ v, exec (.scanLine h index left right flags photosites) s =
      .next ((s.asPlaying.onsets s.timing s.console s.clock (openNotes s.detectors)).beside
        (lockBystanders s v h)).loadRollPedals.startStallTimer := by
  have run := exec_scanLine_measured (left := left) (right := right) (flags := flags) (photosites := photosites) ht accepting
    room expected placed anchor (hk ▸ far) (.inl starting)
  obtain ⟨speed, session, -, timing, raises, writes⟩ :=
    s.measuring_fields h (scanned index left right flags photosites s.clock position) (index - e).toNat
  rw [← hk, ← hT] at run
  generalize s.measuring h (scanned index left right flags photosites s.clock position) (index - e).toNat = u at *
  have rate : u.speed.targetRate = s.speed.targetRate := by rw [speed]; rfl
  obtain ⟨figures, -, quiet⟩ := u.formed_fields k T
  rw [State.measure_starting (by omega) (by rw [session, starting]), State.measuresGood, rate, timing, good,
    State.judgeStarting_locks (by rw [figures, speed]; exact third), State.watchLine_lock] at run
  have locked : { ({ u.formed k T with speed := (u.formed k T).speed.locks } : State) with
      linkT := s.linkT, linkC := s.linkC, linkS := s.linkS, intake := s.intake, speed := s.speed } = s := by
    rw [State.formed_eq]
    exact writes
  have heard : Raises (s.heard h) { u.formed k T with speed := (u.formed k T).speed.locks } 0#8 := by
    have formed : Raises (s.heard h) (u.formed k T) 0#8 := by simpa using raises.trans quiet
    exact formed.keep rfl rfl rfl
  rw [State.moveSession_restrike starting heard locked] at run
  exact ⟨_, run⟩

/-- The links of a locking line: its frame ends, and SESSION joins what the restrike raised. -/
theorem Hears.locked (s restruck v : State) (h : Head) :
    Hears restruck (restruck.beside (lockBystanders s v h)).loadRollPedals.startStallTimer h 0x01#8 := by
  intro l
  have ports : (restruck.beside (lockBystanders s v h)).loadRollPedals.startStallTimer.link l =
      lockedPort s h l (restruck.link l) := by
    refine Eq.trans (State.link_congr ?_ ?_ ?_ l) (restruck.beside_link (lockBystanders s v h) l)
    iterate 3 simp [State.startStallTimer]
  rw [ports]
  unfold lockedPort
  split <;> rfl

/-- Settles O18: the restrike is `State.onsets` of the open notes beside the line's own effects, and what the lock loads and
starts after it has its own lemmas. -/
theorem lockRestrikesHeldNotes : Obligations.LockRestrikesHeldNotes := by
  intro h index left right flags photosites e a position k T q s restruck ht accepting room expected placed anchor hk far hT
    positive brief hq good starting third restrikes
  have inside : inBand (ratio k T s.speed.targetRate) s.timing.speedTolerance = true := by
    rw [hq] at good
    exact (inBand_iff _ _).mpr good
  obtain ⟨v, run⟩ := exec_scanLine_locks (left := left) (right := right) (flags := flags) (photosites := photosites) ht
    accepting room expected placed anchor hk far hT positive brief inside starting third
  have onsets : s.asPlaying.onsets s.timing s.console s.clock (openNotes s.detectors) = restruck := restrikes.symm
  have struck := State.onsets_struckKeys (s := s.asPlaying) rfl s.timing s.console s.clock (openNotes s.detectors)
  have session : restruck.session = s.asPlaying.session := by rw [← onsets]; simp
  have pedals : restruck.pedals = s.pedals := by rw [← onsets]; simp [State.asPlaying]
  have console : restruck.console = s.console := by rw [← onsets]; simp [State.asPlaying]
  have clock : restruck.clock = s.clock := by rw [← onsets]; simp [State.asPlaying]
  have timing : restruck.timing = s.timing := by rw [← onsets]; simp [State.asPlaying]
  have shaping : restruck.shaping = s.shaping := by rw [← onsets]; simp [State.asPlaying]
  rw [onsets] at run struck
  refine ⟨_, run, .locked s restruck v h, ?_, ?_, ?_, ?_, fun j => ?_, fun n => ?_, fun n isOpen => ?_, fun n closed => ?_, ?_, ?_,
    ?_, ?_, ?_, ?_, ?_⟩
  · simpa [State.startStallTimer, State.beside, State.asPlaying] using session
  · simp [State.startStallTimer, State.beside]
  · simp [State.startStallTimer, State.beside]
  · simp [State.startStallTimer, State.beside]
  · exact State.key_congr (by simp [State.startStallTimer, State.beside]) j
  · simp [State.startStallTimer, State.beside]
  · simpa [State.startStallTimer, State.beside] using (struck n).1 (mem_openNotes.mpr isOpen)
  · simpa [State.startStallTimer, State.beside, State.asPlaying] using (struck n).2 fun held => closed (mem_openNotes.mp held)
  · simp [State.startStallTimer, State.beside, lockBystanders]
  · simp [State.startStallTimer, State.beside, after, clock, timing]
  · simp [State.startStallTimer, State.loadRollPedals_pedals, State.beside, State.trackOpen, lockBystanders, requestOf, trackDamper]
  · simp [State.startStallTimer, State.loadRollPedals_pedals, State.beside, State.trackOpen, lockBystanders, requestOf, trackSoft]
  · simp [State.startStallTimer, State.loadRollPedals_pedals, State.beside, pedals, console, requestOf]
  · refine (restruck.beside (lockBystanders s v h)).loadRollPedals_shaping.trans ?_
    exact State.shapingFor_congr (by simp [State.beside, pedals]) (by simp [State.beside, shaping]) _ _
  · rw [← onsets]
    apply State.eq_of_fields <;> simp [State.startStallTimer, State.beside, lockBystanders, State.asPlaying]

end Sys2Proof.Machine

/-! PROOF. The reports of a decoded line in their order (section 2.5). -/

namespace Sys2Proof.Machine

/-! ## The reports of one detector (R29, R30, R32, R33) -/

/-- The onset time a report carries. -/
def onsetTime : Option HoleReport → Option Time
  | some (.onset time) => some time
  | some (.offset _) | none => none

/-- The first-dark time a report carries. -/
def offsetTime : Option HoleReport → Option Time
  | some (.offset time) => some time
  | some (.onset _) | none => none

/-- A CANDIDATE's sample opens it, closes it, or leaves it a CANDIDATE. -/
theorem Detector.sample_candidate_cases (first m : Mark) (seen count : Nat) (light : Bool) :
    ∃ d, (Detector.candidate first seen count).sample m light = d ∧
      (d = .opened first .zero ∨ d = .closed ∨ ∃ seen count, d = .candidate first seen count) := by
  refine ⟨_, rfl, ?_⟩
  rw [Detector.sample_candidate]
  (repeat' split) <;> simp

/-- A sample's report is an onset exactly when the detector opened by it, and an offset exactly when it closed by it. -/
theorem reports_sample (d : Detector) (m : Mark) (light : Bool) :
    onsetReport d (d.sample m light) = onsetTime (holeReport d (d.sample m light)) ∧
      offsetReport d (d.sample m light) = offsetTime (holeReport d (d.sample m light)) := by
  cases d with
  | closed => cases light <;> exact ⟨rfl, rfl⟩
  | candidate first seen count =>
    obtain ⟨d, sampled, opened | closed | ⟨seen', count', candidate⟩⟩ :=
      Detector.sample_candidate_cases first m seen count light
    · rw [sampled, opened]; exact ⟨rfl, rfl⟩
    · rw [sampled, closed]; exact ⟨rfl, rfl⟩
    · rw [sampled, candidate]; exact ⟨rfl, rfl⟩
  | opened onset dark =>
    cases light with
    | true => cases dark <;> exact ⟨rfl, rfl⟩
    | false => cases dark <;> exact ⟨rfl, rfl⟩

/-! ## The reports of one line in their order (R35) -/

theorem State.handPedal_sample (s : State) (d : Decode) (p : Pedal) (old : Detector) (m : Mark) (light : Bool) :
    s.handPedal d p (holeReport old (old.sample m light)) = s.levelReported d p old (old.sample m light) := by
  obtain ⟨onset, offset⟩ := reports_sample old m light
  rw [State.levelReported, onset, offset]
  rcases holeReport old (old.sample m light) with - | (time | time) <;> rfl

/-- A note track's offset report is taken in the pass of the offsets. -/
theorem State.handNote_offset (s : State) (d : Decode) (n : NoteTrack) (r : Option HoleReport) :
    s.handNote d false n r = (match offsetTime r with | some time => s.noteOffset d.timing n time | none => s) := by
  rcases r with - | (time | time) <;> rfl

/-- A note track's onset report is taken in the pass of the onsets. -/
theorem State.handNote_onset (s : State) (d : Decode) (n : NoteTrack) (r : Option HoleReport) :
    s.handNote d true n r = (match onsetTime r with | some time => s.noteOnset d.timing d.console n time | none => s) := by
  rcases r with - | (time | time) <;> rfl

/-- The offset reports of a line's detectors, with their note tracks in increasing number. -/
def offsetTimes (old new : Vector Detector 101) : List (NoteTrack × Time) :=
  (List.finRange 88).filterMap fun n => (offsetReport old[noteTrackOf n] new[noteTrackOf n]).map (n, ·)

/-- The onset reports of a line's detectors, with their note tracks in increasing number. -/
def onsetTimes (old new : Vector Detector 101) : List (NoteTrack × Time) :=
  (List.finRange 88).filterMap fun n => (onsetReport old[noteTrackOf n] new[noteTrackOf n]).map (n, ·)

/-- The line's DAMPER, step codes and SOFT, in this order (R35). -/
def State.controlsReported (s : State) (d : Decode) (old : Vector Detector 101) : State :=
  ((s.levelReported d .damper old[(1 : Track)] s.detectors[(1 : Track)]).codesReported old).levelReported d .soft
    old[(100 : Track)] s.detectors[(100 : Track)]

theorem State.reported_eq (s : State) (d : Decode) (old : Vector Detector 101) :
    s.reported d old =
      (onsetTimes old s.detectors).foldl (fun u r => u.noteOnset d.timing d.console r.1 r.2)
        ((offsetTimes old s.detectors).foldl (fun u r => u.noteOffset d.timing r.1 r.2) (s.controlsReported d old)) := rfl

theorem foldl_handNote_offsets (s : State) (d : Decode) (old : Vector Detector 101) (f : Option Filter) (l : Line) :
    (List.finRange 88).foldl (fun s n => s.handNote d false n
        (holeReport old[noteTrackOf n] (sampleAll old f l)[noteTrackOf n])) s =
      (offsetTimes old (sampleAll old f l)).foldl (fun u r => u.noteOffset d.timing r.1 r.2) s := by
  rw [offsetTimes, List.foldl_filterMap]
  refine congrArg (fun f => List.foldl f s (List.finRange 88)) (funext fun u => funext fun n => ?_)
  rw [State.handNote_offset, sampleAll_getElem, (reports_sample _ _ _).2]
  cases offsetTime _ <;> rfl

theorem foldl_handNote_onsets (s : State) (d : Decode) (old : Vector Detector 101) (f : Option Filter) (l : Line) :
    (List.finRange 88).foldl (fun s n => s.handNote d true n
        (holeReport old[noteTrackOf n] (sampleAll old f l)[noteTrackOf n])) s =
      (onsetTimes old (sampleAll old f l)).foldl (fun u r => u.noteOnset d.timing d.console r.1 r.2) s := by
  rw [onsetTimes, List.foldl_filterMap]
  refine congrArg (fun f => List.foldl f s (List.finRange 88)) (funext fun u => funext fun n => ?_)
  rw [State.handNote_onset, sampleAll_getElem, (reports_sample _ _ _).1]
  cases onsetTime _ <;> rfl

theorem State.levelReported_detectors (s : State) (d : Decode) (p : Pedal) (old new : Detector) :
    (s.levelReported d p old new).detectors = s.detectors := by
  unfold State.levelReported
  split <;> simp

theorem State.codesReported_detectors (s : State) (old : Vector Detector 101) :
    (s.codesReported old).detectors = s.detectors := rfl

/-- The step codes of the detectors before the line are compared with those after it (R34). -/
theorem State.handStepCodes_sampled {s u : State} (old : Vector Detector 101) (before : old = s.detectors) :
    u.handStepCodes s.bassCode s.trebleCode = u.codesReported old := by
  subst before
  exact u.handStepCodes_eq s.detectors

theorem State.controls_sampled (s : State) (d : Decode) (new : Vector Detector 101)
    (sampled : ∀ k : Track, ∃ m light, new[k] = s.detectors[k].sample m light) :
    ((({ s with detectors := new } : State).handPedal d .damper (holeReport s.detectors[trackDamper] new[trackDamper])).handStepCodes
        s.bassCode s.trebleCode).handPedal d .soft (holeReport s.detectors[trackSoft] new[trackSoft]) =
      ({ s with detectors := new } : State).controlsReported d s.detectors := by
  obtain ⟨m, light, damper⟩ := sampled trackDamper
  obtain ⟨m', light', soft⟩ := sampled trackSoft
  rw [damper, State.handPedal_sample, ← damper, State.handStepCodes_sampled (s := s) s.detectors rfl, soft,
    State.handPedal_sample, ← soft]
  rfl

/-- The samples of a line hand on their reports in the order of R35, from the detectors as the line leaves them. -/
theorem State.sampleLine_eq (s : State) (d : Decode) (l : Line) :
    s.sampleLine d l =
      ({ s with detectors := sampleAll s.detectors s.tracker.filter l } : State).reported d s.detectors := by
  have controls := s.controls_sampled d (sampleAll s.detectors s.tracker.filter l) fun k => ⟨_, _, sampleAll_getElem _ _ _ k⟩
  rw [State.reported_eq, ← controls, ← foldl_handNote_offsets, ← foldl_handNote_onsets]
  rfl

/-! ## The reports beside other blocks -/

section

variable {b : Bystanders}

theorem State.beside_levelReported (hb : b.Neutral) (s : State) (d : Decode) (p : Pedal) (old new : Detector) :
    (s.beside b).levelReported d p old new = (s.levelReported d p old new).beside b := by
  unfold State.levelReported
  split
  · exact State.beside_pedalChange hb s _ _ _ _
  · exact State.beside_pedalChange hb s _ _ _ _
  · rfl

theorem State.beside_codesReported {s : State} (detectors : b.detectors = s.detectors) (old : Vector Detector 101) :
    (s.beside b).codesReported old = (s.codesReported old).beside b := by
  obtain ⟨ports, intake, tracker, ds, speed, stallTimer, startupTimer⟩ := b
  subst detectors
  rfl

theorem State.beside_offsets (hb : b.Neutral) (s : State) (t : Timing) (times : List (NoteTrack × Time)) :
    times.foldl (fun u r => u.noteOffset t r.1 r.2) (s.beside b) =
      (times.foldl (fun u r => u.noteOffset t r.1 r.2) s).beside b := by
  induction times generalizing s with
  | nil => rfl
  | cons r times ih => rw [List.foldl_cons, State.beside_noteOffset hb, ih, List.foldl_cons]

theorem State.beside_onsetTimes (hb : b.Neutral) {s : State} (detectors : b.detectors = s.detectors) (t : Timing) (c : Console)
    (times : List (NoteTrack × Time)) :
    times.foldl (fun u r => u.noteOnset t c r.1 r.2) (s.beside b) =
      (times.foldl (fun u r => u.noteOnset t c r.1 r.2) s).beside b := by
  induction times generalizing s with
  | nil => rfl
  | cons r times ih =>
    rw [List.foldl_cons, State.beside_noteOnset hb s detectors, ih (by simpa using detectors), List.foldl_cons]

theorem State.offsets_detectors (s : State) (t : Timing) (times : List (NoteTrack × Time)) :
    (times.foldl (fun u r => u.noteOffset t r.1 r.2) s).detectors = s.detectors := by
  induction times generalizing s with
  | nil => rfl
  | cons r times ih => rw [List.foldl_cons, ih]; simp

theorem State.controlsReported_detectors (s : State) (d : Decode) (old : Vector Detector 101) :
    (s.controlsReported d old).detectors = s.detectors := by
  rw [State.controlsReported, State.levelReported_detectors, State.codesReported_detectors, State.levelReported_detectors]

/-- The reports of a line read the detectors and write no bystander but through raised events. -/
theorem State.beside_reported (hb : b.Neutral) {s : State} (detectors : b.detectors = s.detectors) (d : Decode)
    (old : Vector Detector 101) : (s.beside b).reported d old = (s.reported d old).beside b := by
  have same : (s.beside b).detectors = s.detectors := detectors
  have controls : (s.beside b).controlsReported d old = (s.controlsReported d old).beside b := by
    unfold State.controlsReported
    rw [same, State.beside_levelReported hb, State.beside_codesReported, State.beside_levelReported hb]
    rw [State.levelReported_detectors, detectors]
  rw [State.reported_eq, State.reported_eq, controls, same, State.beside_offsets hb, State.beside_onsetTimes hb]
  rw [State.offsets_detectors, State.controlsReported_detectors, detectors]

end

end Sys2Proof.Machine

/-! PROOF. The intake through a decode (section 1.6). -/

namespace Sys2Proof.Machine

/-! ## Intake and RETURNING through a decode (R3, R18) -/

/-- The intake stands unless the session enters RETURNING, which stops and empties it and is not left again. -/
def State.ReturnsStopped (s t : State) : Prop :=
  (s.session.state = .returning → t.session.state = .returning ∧ t.intake = s.intake) ∧
  (s.session.state ≠ .returning → if t.session.state = .returning then t.intake = s.intake.stopped else t.intake = s.intake)

theorem State.ReturnsStopped.same {s t : State} (state : t.session.state = s.session.state) (intake : t.intake = s.intake) :
    s.ReturnsStopped t := by
  refine ⟨fun returning => ⟨state.trans returning, intake⟩, fun stays => ?_⟩
  rw [if_neg (by rw [state]; exact stays)]
  exact intake

theorem State.ReturnsStopped.moved {s t : State} (stays : s.session.state ≠ .returning) (stays' : t.session.state ≠ .returning)
    (intake : t.intake = s.intake) : s.ReturnsStopped t := by
  refine ⟨fun returning => absurd returning stays, fun _ => ?_⟩
  rw [if_neg stays']
  exact intake

theorem State.ReturnsStopped.returned {s t : State} (stays : s.session.state ≠ .returning) (returns : t.session.state = .returning)
    (intake : t.intake = s.intake.stopped) : s.ReturnsStopped t := by
  refine ⟨fun returning => absurd returning stays, fun _ => ?_⟩
  rw [if_pos returns]
  exact intake

theorem State.ReturnsStopped.trans {s t u : State} (h : s.ReturnsStopped t) (h' : t.ReturnsStopped u) : s.ReturnsStopped u := by
  refine ⟨fun returning => ?_, fun stays => ?_⟩
  · obtain ⟨returning', intake⟩ := h.1 returning
    obtain ⟨returning'', intake'⟩ := h'.1 returning'
    exact ⟨returning'', intake'.trans intake⟩
  · have step := h.2 stays
    by_cases returns : t.session.state = .returning
    · obtain ⟨returning', intake'⟩ := h'.1 returns
      rw [if_pos returns] at step
      rw [if_pos returning', intake', step]
    · rw [if_neg returns] at step
      have step' := h'.2 returns
      rw [step] at step'
      exact step'

theorem State.ReturnsStopped.enterReturning {s : State} (stays : s.session.state ≠ .returning) (c : LastCause) :
    s.ReturnsStopped (s.enterReturning c) := by
  obtain ⟨session, -, -, -, intake⟩ := s.enterReturning_spec c
  exact .returned stays (by rw [session]; rfl) intake

theorem State.ReturnsStopped.reportStall (s : State) (c : StallCause) : s.ReturnsStopped (s.reportStall c) := by
  by_cases running : s.session.state = .starting ∨ s.session.state = .playing
  · refine .moved (by rcases running with state | state <;> simp [state]) ?_ (by simp)
    rw [State.reportStall_running running, (s.enterStalled_spec c).1]
    nofun
  · rw [State.reportStall_still running]
    refine .same ?_ rfl
    dsimp only
    split <;> rfl

theorem State.ReturnsStopped.reportStallEnd (s : State) (c : StallCause) : s.ReturnsStopped (s.reportStallEnd c) := by
  by_cases stalled : s.session.state = .stalled
  · have stays : s.session.state ≠ .returning := by rw [stalled]; decide
    by_cases returns : (s.reportStallEnd c).session.state = .returning
    · exact .returned stays returns (State.reportStallEnd_returning stalled returns)
    · exact .moved stays returns (s.reportStallEnd_intake c returns)
  · rw [State.reportStallEnd_unheld fun h => absurd h stalled]
    exact .same rfl rfl

theorem State.ReturnsStopped.insertEnd (s : State) (due : Time) : s.ReturnsStopped (s.insertOther due .endMark) := by
  rcases s.insertEnd_cases due with same | ⟨playing, performed⟩
  · exact .same (by rw [same.session]) same.intake
  · rw [performed]
    exact State.ReturnsStopped.trans (t := s.takeSeq) (.same rfl rfl) (.enterReturning (by simp [playing]) _)

theorem State.ReturnsStopped.handTracking (s : State) (r : TrackReport) : s.ReturnsStopped (s.handTracking r) := by
  have raised : s.ReturnsStopped (s.raise .tracking) := .same rfl rfl
  cases r with
  | loss => exact raised.trans (.reportStall _ _)
  | regain => exact raised.trans (.reportStallEnd _ _)

theorem State.ReturnsStopped.sampleLine (s : State) (d : Decode) (l : Line) : s.ReturnsStopped (s.sampleLine d l) :=
  .same (by simp) (by simp)

theorem State.ReturnsStopped.testEnd (s : State) (d : Decode) (l : Line) : s.ReturnsStopped (s.testEnd d l) := by
  have flagged : s.ReturnsStopped { s with session := { s.session with endConfirmed := true } } := .same rfl rfl
  unfold State.testEnd
  split
  · unfold State.confirmEnd
    refine flagged.trans ?_
    dsimp only
    split
    · exact .insertEnd _ _
    · rename_i starting
      exact .enterReturning (by simp [starting]) _
    all_goals exact .same rfl rfl
  · exact .same rfl rfl

theorem State.ReturnsStopped.applyDecode (s : State) (d : Decode) (l : Line) : s.ReturnsStopped (s.applyDecode d l) := by
  unfold State.applyDecode
  split
  · exact .same rfl rfl
  · have judged : s.ReturnsStopped { s with tracker := (s.tracker.judge l).tracker } := .same rfl rfl
    refine judged.trans ?_
    dsimp only
    split
    · split
      · exact (State.ReturnsStopped.sampleLine _ d l).trans (.testEnd _ d l)
      · exact .same rfl rfl
    · refine State.ReturnsStopped.trans ?_ (.testEnd _ d l)
      split
      · exact (State.ReturnsStopped.handTracking _ _).trans (.sampleLine _ d l)
      · exact (State.ReturnsStopped.sampleLine _ d l).trans (.handTracking _ _)

/-! ## The next line's decode (R12) -/

/-- The intake with the head line gone and its decode over. -/
def Intake.popped (i : Intake) (rest : List Line) : Intake := { i with queue := rest, decode := none }

/-- The state with the head line gone and its decode over, before the decode's effects. -/
def State.popped (s : State) (rest : List Line) : State := { s with intake := s.intake.popped rest }

/-- The intake with the head line gone and the next line's decode begun, if there is a next line. -/
def State.nextIntake (s : State) (rest : List Line) : Intake :=
  { s.intake with queue := rest
                  decode := if rest = [] then none else some ⟨s.clock, s.timing, s.console⟩ }

theorem State.beginDecode_of_popped {s t : State} {rest : List Line} (intake : t.intake = s.intake.popped rest)
    (clock : t.clock = s.clock) (timing : t.timing = s.timing) (console : t.console = s.console) :
    t.beginDecode = { t with intake := s.nextIntake rest } := by
  unfold State.beginDecode
  rw [intake, clock, timing, console]
  by_cases waiting : rest = []
  · rw [if_neg (by simp [Intake.popped, waiting])]
    subst waiting
    apply State.eq_of_fields <;> simp [intake, clock, timing, console, State.nextIntake, Intake.popped]
  · rw [if_pos ⟨waiting, rfl⟩]
    simp only [State.nextIntake, if_neg waiting]
    rfl

theorem State.beginDecode_of_stopped {t : State} {i : Intake} (intake : t.intake = i.stopped) : t.beginDecode = t := by
  unfold State.beginDecode
  rw [if_neg (by simp [intake, Intake.stopped, Intake.emptied])]

/-- A completion later than its decode began: the head line goes, its effects are applied, the next line's decode begins. -/
theorem exec_decodeCompletion_later {s : State} {d : Decode} {l : Line} {rest : List Line}
    (running : s.intake.decode = some d) (later : d.begun ≠ s.clock) (head : s.intake.queue = l :: rest) :
    exec .decodeCompletion s = .next ((s.popped rest).applyDecode d l).beginDecode :=
  exec_decodeCompletion_running running later head

/-- The completion's last step, by the state that the effects leave (R3, R12). -/
theorem State.beginDecode_applied {s v : State} {rest : List Line} (returns : (s.popped rest).ReturnsStopped v)
    (rolling : s.session.state ≠ .returning) (clock : v.clock = s.clock) (timing : v.timing = s.timing)
    (console : v.console = s.console) :
    (v.session.state ≠ .returning → v.beginDecode = { v with intake := s.nextIntake rest }) ∧
      (v.session.state = .returning → v.beginDecode = v ∧ v.intake = s.intake.stopped) := by
  have outcome := returns.2 rolling
  refine ⟨fun stays => ?_, fun returned => ?_⟩
  · rw [if_neg stays] at outcome
    exact State.beginDecode_of_popped outcome clock timing console
  · rw [if_pos returned] at outcome
    exact ⟨State.beginDecode_of_stopped outcome, outcome⟩

/-- Settles O22: `State.ReturnsStopped` says which intake the next line's decode finds. -/
theorem decodeCompletionTakesTheHeadLine : Obligations.DecodeCompletionTakesTheHeadLine := by
  intro d l rest s next running head hnext
  have hnext : next = s.nextIntake rest := hnext
  refine ⟨fun now => ?_, fun later => ⟨fun confirmed => ?_, fun rolling => ?_⟩⟩
  · have none : s.decodeElapsed = 0 := (State.decodeElapsed_eq_zero running).mpr now
    show Host.Outcome.next (if s.decodeElapsed = 0 then s else s.completeDecode) = _
    rw [if_pos none]
  · have idle : (s.popped rest).applyDecode d l = s.popped rest := by
      unfold State.applyDecode
      exact if_pos confirmed
    rw [exec_decodeCompletion_later running later head, idle, hnext,
      State.beginDecode_of_popped (t := s.popped rest) rfl rfl rfl rfl]
    rfl
  · obtain ⟨stays, returned⟩ := State.beginDecode_applied (.applyDecode (s.popped rest) d l) rolling (by simp [State.popped])
      (by simp [State.popped]) (by simp [State.popped])
    refine ⟨_, exec_decodeCompletion_later running later head, fun notReturning => ?_, State.lineReady_iff _, fun returning => ?_⟩
    · rw [stays (by simpa using notReturning), hnext]
    · obtain ⟨ended, intake⟩ := returned (by simpa using returning)
      rw [ended, intake]
      rfl

end Sys2Proof.Machine

/-! PROOF. The roll tracker (sections 2.1 and 2.2). -/

namespace Sys2Proof.Machine

/-! ## Edges, filter and the tracking tables (R19, R20, R22 to R24) -/

theorem Line.validEdges_iff (l : Line) :
    l.validEdges = true ↔
      l.leftValid = true ∧ l.rightValid = true ∧ l.left + 3284 ≤ l.right ∧ l.right ≤ l.left + 3628 := by
  have narrow : 3284 ≤ l.paperWidth ↔ l.left + 3284 ≤ l.right := by rw [Line.paperWidth]; omega
  have wide : l.paperWidth ≤ 3628 ↔ l.right ≤ l.left + 3628 := by rw [Line.paperWidth]; omega
  simp only [Line.validEdges, Bool.and_eq_true, decide_eq_true_eq, narrow, wide, and_assoc]

theorem filterMove_eq {value measured divisor moved : Nat}
    (h : (moved : Int) = value + Int.tdiv (16 * (measured : Int) - value) divisor) : filterMove value measured divisor = moved := by
  rw [filterMove, truncDiv, ← h, Int.toNat_natCast]

/-- The filter that R20 asks for is the machine's. -/
theorem filterAfter_eq {before : Option Filter} {l : Line} {f : Filter} (valid : l.left ≤ l.right)
    (unset : before = none → f = ⟨16 * ((l.left + l.right) / 2), 16 * (l.right - l.left)⟩)
    (moves : ∀ g, before = some g →
      (f.cf16 : Int) = g.cf16 + Int.tdiv (16 * (((l.left + l.right) / 2 : Nat) : Int) - g.cf16) 8 ∧
      (f.wf16 : Int) = g.wf16 + Int.tdiv (16 * ((l.right - l.left : Nat) : Int) - g.wf16) 32) :
    filterAfter before l = f := by
  have width : l.paperWidth.toNat = l.right - l.left := by rw [Line.paperWidth]; omega
  cases before with
  | none => rw [unset rfl, filterAfter, width]; rfl
  | some g =>
    obtain ⟨centre, width'⟩ := moves g rfl
    rw [filterAfter, width, Line.centre, filterMove_eq centre, filterMove_eq width']

theorem Tracker.judge_valid {t : Tracker} {l : Line} (valid : l.validEdges = true) (found : t.state ≠ .lost) :
    t.judge l = ⟨{ t with state := .locked, filter := some (filterAfter t.filter l), invalidRun := 0 }, true, none⟩ := by
  cases state : t.state with
  | lost => exact absurd state found
  | unseeded | locked | holding => simp [Tracker.judge, valid, state]

theorem Tracker.judge_invalid {t : Tracker} {l : Line} (invalid : l.validEdges = false) (found : t.state ≠ .lost)
    (short : t.invalidRun < 47) :
    t.judge l =
      ⟨{ t with state := if t.state = .unseeded then .unseeded else .holding, invalidRun := t.invalidRun + 1 }, true, none⟩ := by
  have run : ¬(48 ≤ t.invalidRun + 1) := by omega
  cases state : t.state with
  | lost => exact absurd state found
  | unseeded | locked | holding => simp [Tracker.judge, invalid, state, Tracker.invalidLine, run]

theorem Tracker.judge_loss {t : Tracker} {l : Line} (invalid : l.validEdges = false) (found : t.state ≠ .lost)
    (long : 47 ≤ t.invalidRun) :
    t.judge l = ⟨{ state := .lost, filter := t.filter, invalidRun := 48, validRun := 0 }, true, some .loss⟩ := by
  have run : 48 ≤ t.invalidRun + 1 := by omega
  cases state : t.state with
  | lost => exact absurd state found
  | unseeded | locked | holding => simp [Tracker.judge, invalid, state, Tracker.invalidLine, run]

theorem Tracker.judge_stillLost {t : Tracker} {l : Line} (invalid : l.validEdges = false) (lost : t.state = .lost) :
    t.judge l = ⟨{ t with validRun := 0 }, false, none⟩ := by
  simp [Tracker.judge, invalid, lost]

theorem Tracker.judge_regaining {t : Tracker} {l : Line} (valid : l.validEdges = true) (lost : t.state = .lost)
    (short : t.validRun < 7) :
    t.judge l = ⟨{ t with filter := some (filterAfter t.filter l), validRun := t.validRun + 1 }, false, none⟩ := by
  have run : ¬(8 ≤ t.validRun + 1) := by omega
  simp [Tracker.judge, valid, lost, Tracker.validWhileLost, run]

theorem Tracker.judge_regain {t : Tracker} {l : Line} (valid : l.validEdges = true) (lost : t.state = .lost)
    (long : 7 ≤ t.validRun) :
    t.judge l =
      ⟨{ state := .locked, filter := some (filterAfter t.filter l), invalidRun := 0, validRun := 0 }, true, some .regain⟩ := by
  have run : 8 ≤ t.validRun + 1 := by omega
  simp [Tracker.judge, valid, lost, Tracker.validWhileLost, run]

/-! ## A kind once raised stays latched -/

/-- Every link's latch holds the kind. -/
def State.Latched (s : State) (e : EventKind) : Prop := ∀ l, (s.link l).latch &&& e.bit = e.bit

theorem latched_or (latch kinds bit : BitVec 8) (held : latch &&& bit = bit) : (latch ||| kinds) &&& bit = bit := by
  ext i hi
  have := congrArg (fun b : BitVec 8 => b[i]) held
  simp at this ⊢
  tauto

theorem State.Latched.of_raises {s t : State} {e : EventKind} {kinds : BitVec 8} (held : s.Latched e) (raises : Raises s t kinds) :
    t.Latched e := by
  intro l
  rw [raises l]
  exact latched_or _ _ _ (held l)

theorem LinkPort.raise_latched (p : LinkPort) (e : EventKind) : (p.raise e).latch &&& e.bit = e.bit := by
  unfold LinkPort.raise
  ext i hi
  simp
  tauto

theorem State.raise_latched (s : State) (e : EventKind) : (s.raise e).Latched e := by
  intro l
  rw [State.link_raise]
  exact (s.link l).raise_latched e

/-- The bystanders of a state, each port with a kind raised. -/
def State.raisedBystanders (s : State) (e : EventKind) : Bystanders := { s.bystanders with ports := fun _ p => p.raise e }

theorem State.raisedBystanders_neutral (s : State) (e : EventKind) : (s.raisedBystanders e).Neutral := by
  intro l p k
  simp only [State.raisedBystanders, LinkPort.raise, BitVec.or_assoc, BitVec.or_comm k.bit]

theorem or_of_and {latch bit : BitVec 8} (held : latch &&& bit = bit) : latch ||| bit = latch := by
  ext i hi
  have := congrArg (fun b : BitVec 8 => b[i]) held
  simp at this ⊢
  tauto

/-- Raising a latched kind again changes nothing. -/
theorem State.Latched.beside_eq {s : State} {e : EventKind} (held : s.Latched e) : s.beside (s.raisedBystanders e) = s := by
  have port (p : LinkPort) (latched : p.latch &&& e.bit = e.bit) : p.raise e = p := by
    rw [LinkPort.raise, or_of_and latched]
  have heldT : s.linkT.raise e = s.linkT := port _ (held .T)
  have heldC : s.linkC.raise e = s.linkC := port _ (held .C)
  have heldS : s.linkS.raise e = s.linkS := port _ (held .S)
  simp only [State.beside, State.raisedBystanders, State.bystanders, heldT, heldC, heldS]

theorem State.beside_latched (s u : State) (e : EventKind) : (s.beside (u.raisedBystanders e)).Latched e := by
  intro l
  rw [State.beside_link]
  exact (s.link l).raise_latched e

/-- The reports of a line take no kind out of a latch. -/
theorem State.Latched.reported {s : State} {e : EventKind} (held : s.Latched e) (d : Decode) (old : Vector Detector 101) :
    (s.reported d old).Latched e := by
  rw [← held.beside_eq, State.beside_reported (s.raisedBystanders_neutral e) rfl]
  exact State.beside_latched _ s e

theorem State.Latched.sampleLine {s : State} {e : EventKind} (held : s.Latched e) (d : Decode) (l : Line) :
    (s.sampleLine d l).Latched e := by
  rw [State.sampleLine_eq]
  generalize sampleAll s.detectors s.tracker.filter l = new
  have sampled : State.Latched { s with detectors := new } e := held
  exact sampled.reported d _

/-- The insertion of an END entry takes no kind out of a latch. -/
theorem State.Latched.insertEnd {s : State} {e : EventKind} (held : s.Latched e) (due : Time) :
    (s.insertOther due .endMark).Latched e := by
  have dropped (c : Entry) (e' : Entry) : (s.takeSeq.replaceEntry c e').Latched e := by
    have raised : Raises s (s.takeSeq.replaceEntry c e') EventKind.drop.bit := by
      intro l
      cases l <;> simp [State.link, State.replaceEntry, State.countDrop, State.raise, State.takeSeq, LinkPort.raise]
    exact held.of_raises raised
  unfold State.insertOther
  dsimp only
  split
  · split
    · show (s.takeSeq.performEnd).Latched e
      unfold State.performEnd
      split
      · exact State.Latched.of_raises (s := s.takeSeq) (fun l => held l) (State.enterReturning_spec _ _).2.1
      · exact fun l => held l
    · exact dropped _ _
  · exact fun l => held l

theorem State.Latched.testEnd {s : State} {e : EventKind} (held : s.Latched e) (d : Decode) (l : Line) :
    (s.testEnd d l).Latched e := by
  have flagged : State.Latched { s with session := { s.session with endConfirmed := true } } e := fun l => held l
  unfold State.testEnd
  split
  · unfold State.confirmEnd
    dsimp only
    split
    · exact flagged.insertEnd _
    · exact flagged.of_raises (State.enterReturning_spec _ _).2.1
    all_goals exact flagged
  · exact held

theorem State.Latched.reportStall {s : State} {e : EventKind} (held : s.Latched e) (c : StallCause) :
    (s.reportStall c).Latched e := by
  by_cases running : s.session.state = .starting ∨ s.session.state = .playing
  · rw [State.reportStall_running running]
    exact held.of_raises (s.enterStalled_spec c).2.1
  · rw [State.reportStall_still running]
    exact fun l => held l

theorem State.Latched.reportStallEnd {s : State} {e : EventKind} (held : s.Latched e) (c : StallCause) :
    (s.reportStallEnd c).Latched e := by
  by_cases ends : s.session.state = .stalled ∧ s.session.causes.holds c = true
  · obtain ⟨stalled, holds⟩ := ends
    by_cases last : s.session.causes.remove c = CauseSet.empty
    · rw [State.reportStallEnd_last stalled holds last]
      exact State.Latched.of_raises (s := { s with session := { s.session with causes := CauseSet.empty } }) (fun l => held l)
        (State.enterStarting_spec _).1
    · rw [State.reportStallEnd_remaining stalled holds last]
      exact fun l => held l
  · rw [State.reportStallEnd_unheld fun stalled => by simpa [stalled] using ends]
    exact held

/-- A report of the tracker latches TRACKING (R23, R24). -/
theorem State.handTracking_latched (s : State) (r : TrackReport) : (s.handTracking r).Latched .tracking := by
  cases r with
  | loss => exact (s.raise_latched .tracking).reportStall _
  | regain => exact (s.raise_latched .tracking).reportStallEnd _

/-- A line with a tracking report leaves TRACKING latched, wherever the report stands among the others (R23, R24, R35). -/
theorem State.applyDecode_latched {s : State} {d : Decode} {l : Line} {r : TrackReport}
    (unconfirmed : s.session.endConfirmed = false) (report : (s.tracker.judge l).report = some r) :
    (s.applyDecode d l).Latched .tracking := by
  rw [State.applyDecode_report s d l r unconfirmed report]
  refine State.Latched.testEnd ?_ d l
  split
  · exact (State.handTracking_latched _ r).sampleLine d l
  · exact State.handTracking_latched _ r

/-! ## The tracker through a decode -/

theorem State.applyDecode_tracker {s : State} (d : Decode) (l : Line) (unconfirmed : s.session.endConfirmed = false) :
    (s.applyDecode d l).tracker = (s.tracker.judge l).tracker := by
  unfold State.applyDecode
  rw [if_neg (by simp [unconfirmed])]
  dsimp only
  (repeat' split) <;> simp

/-- A line that is not sampled moves the tracker alone (R23). -/
theorem State.applyDecode_unsampled {s : State} {d : Decode} {l : Line} (unconfirmed : s.session.endConfirmed = false)
    (unsampled : (s.tracker.judge l).sampled = false) (silent : (s.tracker.judge l).report = none) :
    s.applyDecode d l = { s with tracker := (s.tracker.judge l).tracker } := by
  unfold State.applyDecode
  rw [if_neg (by simp [unconfirmed])]
  simp only [silent, unsampled, Bool.false_eq_true, if_false]

/-- Settles O23: each clause is one row of the tables, and `State.applyDecode_latched` says what a report latches. -/
theorem trackerFollowsTheEdges : Obligations.TrackerFollowsTheEdges := by
  rintro d l rest s valid c w f running later head unconfirmed hvalid rfl rfl unset moves
  have valid_iff : valid ↔ l.validEdges = true := hvalid.trans l.validEdges_iff.symm
  have invalid_of (invalid : ¬valid) : l.validEdges = false := by simpa [valid_iff] using invalid
  have filter (edges : valid) : filterAfter s.tracker.filter l = f :=
    filterAfter_eq (by have := hvalid.mp edges; omega) unset moves
  have tracker : ((s.popped rest).applyDecode d l).beginDecode.tracker = (s.tracker.judge l).tracker := by
    rw [(State.beginDecode_frame _).2.2.2.2.1]
    exact State.applyDecode_tracker d l unconfirmed
  have latched {r : TrackReport} (report : (s.tracker.judge l).report = some r) (m : Link) :
      (((s.popped rest).applyDecode d l).beginDecode.link m).latch &&& 0x04#8 = 0x04#8 := by
    rw [State.link_congr (s := (s.popped rest).applyDecode d l) (by simp) (by simp) (by simp)]
    exact State.applyDecode_latched (s := s.popped rest) unconfirmed report m
  have unsampled (silent : (s.tracker.judge l).sampled = false ∧ (s.tracker.judge l).report = none) :
      { ((s.popped rest).applyDecode d l).beginDecode with tracker := s.tracker, intake := s.intake } = s := by
    rw [State.applyDecode_unsampled (s := s.popped rest) unconfirmed silent.1 silent.2]
    apply State.eq_of_fields <;> simp [State.popped]
  refine ⟨_, exec_decodeCompletion_later running later head, fun edges found => ?_, fun edges found short => ?_,
    fun edges found long => ?_, fun edges lost => ?_, fun edges lost short => ?_, fun edges lost long => ?_⟩
  · rw [tracker, Tracker.judge_valid (valid_iff.mp edges) found, filter edges]
  · rw [tracker, Tracker.judge_invalid (invalid_of edges) found short]
  · have judged := Tracker.judge_loss (invalid_of edges) found long
    exact ⟨by rw [tracker, judged], latched (by rw [judged])⟩
  · have judged := Tracker.judge_stillLost (invalid_of edges) lost
    exact ⟨by rw [tracker, judged], unsampled (by rw [judged]; exact ⟨rfl, rfl⟩)⟩
  · have judged := Tracker.judge_regaining (valid_iff.mp edges) lost short
    exact ⟨by rw [tracker, judged, filter edges], unsampled (by rw [judged]; exact ⟨rfl, rfl⟩)⟩
  · have judged := Tracker.judge_regain (valid_iff.mp edges) lost long
    exact ⟨by rw [tracker, judged, filter edges], latched (by rw [judged])⟩

end Sys2Proof.Machine

/-! PROOF. What a decode hands on (section 2.5 and R35). -/

namespace Sys2Proof.Machine

/-! ## What a decode leaves of the shaping engine (R34, R79) -/

/-- The detectors stand, and of the shaping engine no more than the pedal channels' targets moves. -/
structure State.KeepsCodes (s t : State) : Prop where
  detectors : t.detectors = s.detectors
  shaping : t.shaping = { s.shaping with
    ch2 := { s.shaping.ch2 with target := t.shaping.ch2.target }
    ch3 := { s.shaping.ch3 with target := t.shaping.ch3.target } }

theorem State.KeepsCodes.same {s t : State} (detectors : t.detectors = s.detectors) (shaping : t.shaping = s.shaping) :
    s.KeepsCodes t :=
  ⟨detectors, by rw [shaping]⟩

theorem State.KeepsCodes.trans {s t u : State} (h : s.KeepsCodes t) (h' : t.KeepsCodes u) : s.KeepsCodes u := by
  refine ⟨h'.detectors.trans h.detectors, ?_⟩
  rw [h'.shaping, h.shaping]

theorem State.KeepsCodes.shapingFor {s t : State} (detectors : t.detectors = s.detectors) {a b : Nat}
    (shaping : t.shaping = s.shapingFor a b) : s.KeepsCodes t :=
  ⟨detectors, by rw [shaping]; rfl⟩

theorem State.KeepsCodes.silence {s t : State} (silences : Silences s t) (detectors : t.detectors = s.detectors) : s.KeepsCodes t :=
  .shapingFor detectors silences.shaping

theorem State.KeepsCodes.reportStall (s : State) (c : StallCause) : s.KeepsCodes (s.reportStall c) := by
  by_cases running : s.session.state = .starting ∨ s.session.state = .playing
  · rw [State.reportStall_running running]
    exact .silence (s.enterStalled_spec c).2.2.1 (by simp)
  · rw [State.reportStall_still running]
    exact .same rfl rfl

theorem State.KeepsCodes.reportStallEnd (s : State) (c : StallCause) : s.KeepsCodes (s.reportStallEnd c) := by
  by_cases ends : s.session.state = .stalled ∧ s.session.causes.holds c = true
  · obtain ⟨stalled, holds⟩ := ends
    by_cases last : s.session.causes.remove c = CauseSet.empty
    · rw [State.reportStallEnd_last stalled holds last]
      have cleared : s.KeepsCodes { s with session := { s.session with causes := CauseSet.empty } } := .same rfl rfl
      exact cleared.trans (.silence (State.enterStarting_spec _).2.1 (by simp))
    · rw [State.reportStallEnd_remaining stalled holds last]
      exact .same rfl rfl
  · rw [State.reportStallEnd_unheld fun stalled => by simpa [stalled] using ends]
    exact .same rfl rfl

theorem State.KeepsCodes.handTracking (s : State) (r : TrackReport) : s.KeepsCodes (s.handTracking r) := by
  have raised : s.KeepsCodes (s.raise .tracking) := .same rfl rfl
  cases r with
  | loss => exact raised.trans (.reportStall _ _)
  | regain => exact raised.trans (.reportStallEnd _ _)

theorem State.KeepsCodes.insertEnd (s : State) (due : Time) : s.KeepsCodes (s.insertOther due .endMark) := by
  unfold State.insertOther
  dsimp only
  split
  · split
    · show s.KeepsCodes s.takeSeq.performEnd
      unfold State.performEnd
      split
      · have taken : s.KeepsCodes s.takeSeq := .same rfl rfl
        exact taken.trans (.silence (State.enterReturning_spec _ _).2.2.1 (by simp))
      · exact .same rfl rfl
    · exact .same (by simp) (by simp)
  · exact .same rfl rfl

theorem State.KeepsCodes.testEnd (s : State) (d : Decode) (l : Line) : s.KeepsCodes (s.testEnd d l) := by
  have flagged : s.KeepsCodes { s with session := { s.session with endConfirmed := true } } := .same rfl rfl
  unfold State.testEnd
  split
  · unfold State.confirmEnd
    refine flagged.trans ?_
    dsimp only
    split
    · exact .insertEnd _ _
    · exact .silence (State.enterReturning_spec _ _).2.2.1 (by simp)
    all_goals exact .same rfl rfl
  · exact .same rfl rfl

/-- A PEDAL entry's insertion, performed at once or not, moves no more than a pedal channel's target. -/
theorem State.KeepsCodes.insertPedal (s : State) (due : Time) (p : Pedal) (v : Nat) :
    s.KeepsCodes (s.insertOther due (.pedal p v)) := by
  unfold State.insertOther
  dsimp only
  split
  · split
    · show s.KeepsCodes (s.takeSeq.setRollRequest p v)
      rw [State.setRollRequest_eq]
      cases p with
      | damper => exact .shapingFor rfl rfl
      | soft => exact .shapingFor rfl rfl
    · exact .same (by simp) (by simp)
  · exact .same rfl rfl

theorem State.KeepsCodes.pedalChange (s : State) (t : Timing) (p : Pedal) (isOpen : Bool) (change : Time) :
    s.KeepsCodes (s.pedalChange t p isOpen change) := by
  unfold State.pedalChange
  split
  · exact .insertPedal _ _ _ _
  · exact .same rfl rfl

theorem State.KeepsCodes.levelReported (s : State) (d : Decode) (p : Pedal) (old new : Detector) :
    s.KeepsCodes (s.levelReported d p old new) := by
  unfold State.levelReported
  split
  · exact .pedalChange _ _ _ _ _
  · exact .pedalChange _ _ _ _ _
  · exact .same rfl rfl

theorem State.KeepsCodes.offsets (s : State) (t : Timing) (times : List (NoteTrack × Time)) :
    s.KeepsCodes (times.foldl (fun u r => u.noteOffset t r.1 r.2) s) := by
  induction times generalizing s with
  | nil => exact .same rfl rfl
  | cons r times ih => exact State.KeepsCodes.trans (.same (by simp) (by simp)) (ih _)

theorem State.KeepsCodes.onsets (s : State) (t : Timing) (c : Console) (times : List (NoteTrack × Time)) :
    s.KeepsCodes (times.foldl (fun u r => u.noteOnset t c r.1 r.2) s) := by
  induction times generalizing s with
  | nil => exact .same rfl rfl
  | cons r times ih => exact State.KeepsCodes.trans (.same (by simp) (by simp)) (ih _)

theorem State.KeepsCodes.withDetectors {s t : State} (h : s.KeepsCodes t) (ds : Vector Detector 101) :
    State.KeepsCodes { s with detectors := ds } { t with detectors := ds } :=
  ⟨rfl, h.shaping⟩

theorem State.bassCode_congr {s t : State} (detectors : t.detectors = s.detectors) : t.bassCode = s.bassCode := by
  simp only [State.bassCode, State.trackOpen, detectors]

theorem State.trebleCode_congr {s t : State} (detectors : t.detectors = s.detectors) : t.trebleCode = s.trebleCode := by
  simp only [State.trebleCode, State.trackOpen, detectors]

/-- Step codes reported on both sides of a change that keeps them are the same step codes. -/
theorem State.KeepsCodes.codesReported {s t : State} (h : s.KeepsCodes t) (old : Vector Detector 101) :
    (s.codesReported old).KeepsCodes (t.codesReported old) := by
  have bass := State.bassCode_congr h.detectors
  have treble := State.trebleCode_congr h.detectors
  have shaping := h.shaping
  refine ⟨h.detectors, ?_⟩
  unfold State.codesReported
  dsimp only
  generalize t.shaping = after at shaping ⊢
  simp only [bass, treble]
  rw [shaping]
  rfl

/-- The step codes that the detectors a decode leaves spell, where they changed, with the table's levels as targets (R34, R79). -/
def State.CodesFollow (s t : State) : Prop :=
  (({ s with detectors := t.detectors } : State).codesReported s.detectors).KeepsCodes t

theorem State.codesReported_self (s : State) : s.codesReported s.detectors = s := by
  unfold State.codesReported
  dsimp only
  rw [if_pos rfl, if_pos rfl, if_pos rfl, if_pos rfl]

theorem State.CodesFollow.of_keeps {s t : State} (h : s.KeepsCodes t) : s.CodesFollow t := by
  unfold State.CodesFollow
  rw [h.detectors, State.codesReported_self]
  exact h

theorem State.CodesFollow.keeps {s t u : State} (h : s.CodesFollow t) (h' : t.KeepsCodes u) : s.CodesFollow u := by
  unfold State.CodesFollow at h ⊢
  rw [h'.detectors]
  exact h.trans h'

theorem State.KeepsCodes.follow {s t u : State} (h : s.KeepsCodes t) (h' : t.CodesFollow u) : s.CodesFollow u := by
  unfold State.CodesFollow at h' ⊢
  rw [h.detectors] at h'
  exact ((h.withDetectors u.detectors).codesReported s.detectors).trans h'

theorem State.CodesFollow.sampleLine (s : State) (d : Decode) (l : Line) : s.CodesFollow (s.sampleLine d l) := by
  have detectors : (s.sampleLine d l).detectors = sampleAll s.detectors s.tracker.filter l := by simp
  unfold State.CodesFollow
  rw [detectors, State.sampleLine_eq, State.reported_eq, State.controlsReported]
  generalize sampleAll s.detectors s.tracker.filter l = new
  have damper := State.KeepsCodes.levelReported { s with detectors := new } d .damper s.detectors[(1 : Track)] new[(1 : Track)]
  refine (damper.codesReported s.detectors).trans ?_
  exact ((State.KeepsCodes.levelReported _ _ _ _ _).trans (.offsets _ _ _)).trans (.onsets _ _ _ _)

theorem State.CodesFollow.applyDecode (s : State) (d : Decode) (l : Line) : s.CodesFollow (s.applyDecode d l) := by
  unfold State.applyDecode
  split
  · exact .of_keeps (.same rfl rfl)
  · have judged : s.KeepsCodes { s with tracker := (s.tracker.judge l).tracker } := .same rfl rfl
    refine judged.follow ?_
    dsimp only
    split
    · split
      · exact (State.CodesFollow.sampleLine _ d l).keeps (.testEnd _ d l)
      · exact .of_keeps (.same rfl rfl)
    · refine State.CodesFollow.keeps ?_ (.testEnd _ d l)
      split
      · exact (State.KeepsCodes.handTracking _ _).follow (.sampleLine _ d l)
      · exact (State.CodesFollow.sampleLine _ d l).keeps (.handTracking _ _)

theorem State.CodesFollow.completed (s : State) (rest : List Line) (d : Decode) (l : Line) :
    s.CodesFollow ((s.popped rest).applyDecode d l).beginDecode := by
  have popped : s.KeepsCodes (s.popped rest) := .same rfl rfl
  exact popped.follow ((State.CodesFollow.applyDecode _ d l).keeps (.same (by simp) (by simp)))

/-- The number of a division's step code from the light of its three tracks (R34). -/
theorem stepCode_val (l1 l2 l4 : Bool) :
    (stepCode l1 l2 l4).val = (if l1 then 1 else 0) + (if l2 then 2 else 0) + (if l4 then 4 else 0) := by
  cases l1 <;> cases l2 <;> cases l4 <;> rfl

/-- The shaping engine's expression side after the codes were followed, by whether a division's code changed (R34, R79). -/
theorem State.CodesFollow.divisions {s t : State} (h : s.CodesFollow t) :
    (t.bassCode = s.bassCode → t.shaping.bassCode = s.shaping.bassCode ∧ t.shaping.ch0 = s.shaping.ch0) ∧
    (t.bassCode ≠ s.bassCode → t.shaping.bassCode = t.bassCode ∧
      t.shaping.ch0 = { s.shaping.ch0 with target := s.shaping.stepTable[t.bassCode] * 64 }) ∧
    (t.trebleCode = s.trebleCode → t.shaping.trebleCode = s.shaping.trebleCode ∧ t.shaping.ch1 = s.shaping.ch1) ∧
    (t.trebleCode ≠ s.trebleCode → t.shaping.trebleCode = t.trebleCode ∧
      t.shaping.ch1 = { s.shaping.ch1 with target := s.shaping.stepTable[t.trebleCode] * 64 }) ∧
    t.shaping.ch2.level = s.shaping.ch2.level ∧ t.shaping.ch3.level = s.shaping.ch3.level := by
  have shaping := h.shaping
  have bass : ({ s with detectors := t.detectors } : State).bassCode = t.bassCode := rfl
  have treble : ({ s with detectors := t.detectors } : State).trebleCode = t.trebleCode := rfl
  have bass' : ({ ({ s with detectors := t.detectors } : State) with detectors := s.detectors } : State).bassCode = s.bassCode := rfl
  have treble' : ({ ({ s with detectors := t.detectors } : State) with detectors := s.detectors } : State).trebleCode = s.trebleCode :=
    rfl
  simp only [State.codesReported, bass, treble, bass', treble'] at shaping
  refine ⟨fun same => ?_, fun changed => ?_, fun same => ?_, fun changed => ?_, ?_, ?_⟩
  · rw [shaping]
    exact ⟨if_pos same, if_pos same⟩
  · rw [shaping]
    exact ⟨if_neg changed, if_neg changed⟩
  · rw [shaping]
    exact ⟨if_pos same, if_pos same⟩
  · rw [shaping]
    exact ⟨if_neg changed, if_neg changed⟩
  · rw [shaping]
  · rw [shaping]

/-! ## A sampled line without tracking report and end mark (R35) -/

/-- The reports of a line do not look at the intake. -/
theorem State.reported_withIntake (s : State) (i : Intake) (d : Decode) (old : Vector Detector 101) :
    ({ s with intake := i } : State).reported d old = { s.reported d old with intake := i } := by
  have own : s.reported d old = (s.reported d old).beside s.bystanders :=
    State.beside_reported (b := s.bystanders) (Bystanders.neutral_of_ports rfl) (s := s) rfl d old
  have moved : ({ s with intake := i } : State).reported d old =
      (s.reported d old).beside { s.bystanders with intake := i } :=
    State.beside_reported (b := { s.bystanders with intake := i }) (Bystanders.neutral_of_ports rfl) (s := s) rfl d old
  rw [moved]
  generalize s.reported d old = after at own ⊢
  rw [own]
  rfl

theorem point_stepTable (table : Vector Nat 8) (code : Fin 8) : point table code.val = table[code] := by
  simp [point]

/-- A sampled line with no tracking report: its samples, and then its end mark's test. -/
theorem State.applyDecode_sampled {s : State} {d : Decode} {l : Line} {judged : Tracker}
    (unconfirmed : s.session.endConfirmed = false) (plain : s.tracker.judge l = ⟨judged, true, none⟩) :
    s.applyDecode d l = (({ s with tracker := judged } : State).sampleLine d l).testEnd d l := by
  unfold State.applyDecode
  rw [if_neg (by simp [unconfirmed])]
  simp only [plain, if_true]

/-- A sampled line with no tracking report and no end mark: the reports of R35 are all it does. -/
theorem State.applyDecode_plain {s : State} {d : Decode} {l : Line} {judged : Tracker}
    (unconfirmed : s.session.endConfirmed = false) (plain : s.tracker.judge l = ⟨judged, true, none⟩)
    (unreached : endReached (s.applyDecode d l).detectors[trackEnd] l.position = false) :
    s.applyDecode d l = ({ s with tracker := judged } : State).sampleLine d l := by
  rw [State.applyDecode_sampled unconfirmed plain] at unreached ⊢
  rw [State.testEnd, if_neg]
  simpa using unreached

theorem endReached_eq_false {det : Detector} {p : Position}
    (short : ∀ onset dark, det = .opened onset dark → (p - onset.position).toNat < 31) : endReached det p = false := by
  cases det with
  | opened onset dark => simpa [endReached] using short onset dark rfl
  | closed | candidate => rfl

theorem State.applyDecode_plain_detectors {s : State} {d : Decode} {l : Line} {judged : Tracker}
    (unconfirmed : s.session.endConfirmed = false) (plain : s.tracker.judge l = ⟨judged, true, none⟩) :
    (s.applyDecode d l).detectors = sampleAll s.detectors judged.filter l := by
  rw [State.applyDecode_detectors s d l unconfirmed (by rw [plain]), plain]

/-- The completion at such a line, from the detectors as the line leaves them. -/
theorem State.completed_plain {s : State} {rest : List Line} {d : Decode} {l : Line} {judged : Tracker}
    (unconfirmed : s.session.endConfirmed = false) (plain : s.tracker.judge l = ⟨judged, true, none⟩)
    (unreached : endReached ((s.popped rest).applyDecode d l).beginDecode.detectors[trackEnd] l.position = false) :
    ((s.popped rest).applyDecode d l).beginDecode =
      { ({ s with tracker := judged, detectors := sampleAll s.detectors judged.filter l } : State).reported d s.detectors with
        intake := s.nextIntake rest } := by
  have applied := State.applyDecode_plain (s := s.popped rest) unconfirmed plain (by
    rw [← (State.beginDecode_frame _).2.2.2.2.2.1]; exact unreached)
  rw [applied, State.beginDecode_of_popped (s := s) (rest := rest) (by simp [State.popped]) (by simp [State.popped])
    (by simp [State.popped]) (by simp [State.popped]), State.sampleLine_eq]
  dsimp only [State.popped]
  generalize sampleAll s.detectors judged.filter l = new
  have moved := State.reported_withIntake { s with tracker := judged, detectors := new } (s.intake.popped rest) d s.detectors
  rw [moved]

/-- Settles O25: `State.CodesFollow` follows the step codes through the decode, and a plain line is `State.completed_plain`. -/
theorem decodeHandsOnItsReports : Obligations.DecodeHandsOnItsReports := by
  intro d l rest s code next running later head hcode hnext
  have bass (u : State) : code u true = u.bassCode.val := by
    rw [hcode, State.bassCode, stepCode_val]; rfl
  have treble (u : State) : code u false = u.trebleCode.val := by
    rw [hcode, State.trebleCode, stepCode_val]; rfl
  obtain ⟨bassSame, bassChanged, trebleSame, trebleChanged, ch2, ch3⟩ := (State.CodesFollow.completed s rest d l).divisions
  refine ⟨_, exec_decodeCompletion_later running later head, ?_⟩
  simp only [bass, treble, point_stepTable, ← Fin.ext_iff, ne_eq]
  refine ⟨bassSame, bassChanged, trebleSame, trebleChanged, ch2, ch3, fun unconfirmed found edges unended => ?_⟩
  obtain ⟨judged, plain⟩ : ∃ judged, s.tracker.judge l = ⟨judged, true, none⟩ := by
    cases valid : l.validEdges with
    | true => exact ⟨_, Tracker.judge_valid valid found⟩
    | false => exact ⟨_, Tracker.judge_invalid valid found (by simpa [valid] using edges)⟩
  have tracker : ((s.popped rest).applyDecode d l).beginDecode.tracker = judged := by
    rw [(State.beginDecode_frame _).2.2.2.2.1, State.applyDecode_tracker (s := s.popped rest) d l unconfirmed]
    exact congrArg Judged.tracker plain
  have detectors : ((s.popped rest).applyDecode d l).beginDecode.detectors = sampleAll s.detectors judged.filter l := by
    rw [(State.beginDecode_frame _).2.2.2.2.2.1]
    exact State.applyDecode_plain_detectors (s := s.popped rest) unconfirmed plain
  rw [tracker, detectors, hnext]
  exact State.completed_plain unconfirmed plain (endReached_eq_false unended)

end Sys2Proof.Machine

/-! PROOF. Offsets and pedal changes (sections 6.4 and 9.1). -/

namespace Sys2Proof.Machine

/-! ## Offsets and pedal changes (R106, R151) -/

/-- The due time of a change: a lead beyond the look-ahead leaves no wait, as R106 limits it. -/
theorem changeDue_eq (now change : Time) (t : Timing) (lead : Nat) :
    changeDue now change t lead =
      if notLater now (change + BitVec.ofNat 32 (t.lookAhead - lead)) then change + BitVec.ofNat 32 (t.lookAhead - lead)
      else now := by
  have limited : t.lookAhead - min lead t.lookAhead = t.lookAhead - lead := by omega
  rw [changeDue, laterOf, limitedLead, limited, after]

theorem State.noteOffset_unstruck {s : State} {n : NoteTrack} (unstruck : s.struckKeys[n] = none) (t : Timing) (change : Time) :
    s.noteOffset t n change = s := by
  rw [State.noteOffset, unstruck]

theorem State.noteOffset_struck {s : State} {n : NoteTrack} {k : Key} (struck : s.struckKeys[n] = some k) (t : Timing)
    (change : Time) :
    s.noteOffset t n change =
      { s.insertOther (changeDue s.clock change t t.releaseLead) (.release k (.note n)) with
        struckKeys := s.struckKeys.set n none } := by
  have insertion : (s.insertOther (changeDue s.clock change t t.releaseLead) (.release k (.note n))).struckKeys = s.struckKeys :=
    by simp
  rw [State.noteOffset, struck]
  dsimp only
  rw [insertion]

/-- Settles O28: each report is one insertion at the time of `changeDue_eq`, which does what `State.insertOther_spec` says. -/
theorem offsetsAndPedalChangesQueueEntries : Obligations.OffsetsAndPedalChangesQueueEntries := by
  intro s t n p opening change due hdue
  have at_lead (lead : Nat) : due lead = changeDue s.clock change t lead := (hdue lead).trans (changeDue_eq _ _ _ _).symm
  refine ⟨fun unstruck => State.noteOffset_unstruck unstruck t change, fun k struck => ?_, fun waits => ?_, fun playing => ?_⟩
  · rw [at_lead]
    exact ⟨_, State.insertOther_spec _ _ _, State.noteOffset_struck struck t change⟩
  · rw [State.pedalChange, if_neg waits]
  · rw [State.pedalChange, if_pos playing, at_lead]
    exact State.insertOther_spec _ _ _

end Sys2Proof.Machine

/-! PROOF. Onsets (sections 6.2 and 6.3). -/

namespace Sys2Proof.Machine

/-! ## The key of an onset (R101) -/

theorem State.ownedKey_eq_some {s : State} {n : NoteTrack} {k : Key} (owned : s.ownedKey n = some k) :
    (s.key k).owner = some (.note n) := by
  simpa using List.find?_some owned

theorem State.ownedKey_eq_none {s : State} {n : NoteTrack} :
    s.ownedKey n = none ↔ ∀ j, (s.key j).owner ≠ some (.note n) := by
  simp [State.ownedKey, allKeys, List.find?_eq_none]

/-- The chosen key is owned by the note track if any key is. -/
theorem State.chosenKey_owner {s : State} {n : NoteTrack} {j : Key} (owner : (s.key j).owner = some (.note n)) (c : Console) :
    (s.key (s.chosenKey c n)).owner = some (.note n) := by
  cases owned : s.ownedKey n with
  | none => exact absurd owner (State.ownedKey_eq_none.mp owned j)
  | some k =>
    rw [State.chosenKey, owned]
    exact State.ownedKey_eq_some owned

/-- One fold brings the transposed note track onto a key. -/
theorem mappedKey_val (n : NoteTrack) {transpose : Int} (low : -12 ≤ transpose) (high : transpose ≤ 12) :
    ((mappedKey n transpose).val : Int) = foldKey ((n.val : Int) + transpose) := by
  have note := n.isLt
  have folded : 0 ≤ foldKey ((n.val : Int) + transpose) ∧ foldKey ((n.val : Int) + transpose) < 88 := by
    unfold foldKey
    split
    · omega
    · split <;> omega
  rw [mappedKey, Fin.val_ofNat, Nat.mod_eq_of_lt (by omega), Int.toNat_of_nonneg folded.1]

/-! ## The figures of an onset (R98 to R103) -/

theorem sourceValue_modes (c : Console) (roll lever : Nat) :
    (c.mode = .roll → sourceValue c roll lever = roll) ∧ (c.mode = .manual → sourceValue c roll lever = lever) ∧
      (c.mode = .blend → sourceValue c roll lever = (roll * (256 - c.blendWeight) + lever * c.blendWeight) / 256) := by
  unfold sourceValue
  refine ⟨fun mode => ?_, fun mode => ?_, fun mode => ?_⟩ <;> rw [mode]

theorem State.onsetIntensity_spec (s : State) (t : Timing) (c : Console) (n : NoteTrack) (k : Key) :
    OnsetIntensity s t c n k (s.onsetIntensity t c n k) := by
  by_cases bass : n.val < t.split
  · obtain ⟨roll, manual, blend⟩ := sourceValue_modes c
      (rollValue (s.shaping.ch0.level / 64) s.detectors[(2 : Track)].isOpen t.accentBoost) c.bassLever
    refine ⟨_, _, _, _, _, fun _ => ⟨rfl, rfl, rfl⟩, fun treble => absurd bass (by omega), rfl, roll, manual, blend, ?_⟩
    simp only [State.onsetIntensity, State.onsetValue, isBass, bass, decide_true, if_true]
    rfl
  · obtain ⟨roll, manual, blend⟩ := sourceValue_modes c
      (rollValue (s.shaping.ch1.level / 64) s.detectors[(99 : Track)].isOpen t.accentBoost) c.trebleLever
    refine ⟨_, _, _, _, _, fun low => absurd low bass, fun _ => ⟨rfl, rfl, rfl⟩, rfl, roll, manual, blend, ?_⟩
    simp only [State.onsetIntensity, State.onsetValue, isBass, bass, decide_false, Bool.false_eq_true, if_false]
    rfl

/-- The strike falls due its flight before the sound, or now when that time is no longer ahead (R125). -/
theorem strikeDue_eq (now onset : Time) (lookAhead flight : Nat) :
    strikeDue now onset lookAhead flight =
      if (now - onset).toNat + flight < lookAhead then onset + BitVec.ofNat 32 lookAhead - BitVec.ofNat 32 flight else now := by
  rw [strikeDue, leadInHand, elapsed, after]
  split
  · next ahead =>
    obtain ⟨lead, rfl⟩ := Nat.exists_eq_add_of_le ahead.le
    have hand : (((now - onset).toNat + flight + lead : Nat) - (flight : Int) - ((now - onset).toNat : Nat)).toNat = lead := by
      omega
    rw [hand, BitVec.ofNat_add, BitVec.ofNat_add, BitVec.ofNat_toNat, BitVec.setWidth_eq]
    ring
  · next late =>
    have none : ((lookAhead : Int) - flight - ((now - onset).toNat : Nat)).toNat = 0 := by omega
    rw [none]
    simp

/-! ## The takeover of a key (R103 to R105) -/

theorem State.takeOver_free {s : State} {k : Key} {n : NoteTrack} (free : (s.key k).owner = none ∨ (s.key k).owner = some (.note n))
    (due : Time) (gap : Nat) : s.takeOver k n due gap = s := by
  rcases free with none | own
  · rw [State.takeOver, none]
  · rw [State.takeOver, own]
    exact if_pos rfl

theorem State.takeOver_owned {s : State} {k : Key} {n : NoteTrack} {m : Owner} (owned : (s.key k).owner = some m)
    (other : m ≠ .note n) (due : Time) (gap : Nat) :
    s.takeOver k n due gap = s.insertOther (takeoverDue s.clock due (s.keyCal k).settle gap) (.takeover k m) := by
  rw [State.takeOver, owned]
  exact if_neg other

/-- The stages of an onset in PLAYING: takeover, claim, strike, and the record of the struck key (R103). -/
theorem State.noteOnset_stages {s : State} (playing : s.session.state = .playing) (t : Timing) (c : Console) (n : NoteTrack)
    (onset : Time) {k : Key} {st : Strike} {due : Time} {u : State} (key : s.chosenKey c n = k)
    (strike : s.onsetStrike t c n k onset = st) (time : strikeDue s.clock onset t.lookAhead st.flight = due)
    (taken : s.takeOver k n due t.repeatGap = u) :
    s.noteOnset t c n onset =
      { (u.setKey k { u.key k with owner := some (.note n) }).insertStrike due st with
        struckKeys := s.struckKeys.set n (some k) } := by
  have struck : ((u.setKey k { u.key k with owner := some (.note n) }).insertStrike due st).struckKeys = s.struckKeys := by
    subst taken
    simp
  rw [State.noteOnset, if_pos playing, State.scheduleOnset]
  dsimp only
  rw [key, strike, time, taken]
  rw [← struck]
  rfl

/-- Settles O27: the onset's key, its figures and its two insertions, each by its own lemma. -/
theorem onsetClaimsAKeyAndQueuesItsStrike : Obligations.OnsetClaimsAKeyAndQueuesItsStrike := by
  intro s t c n onset
  refine ⟨fun waits => by rw [State.noteOnset, if_neg waits], fun playing low high _ _ => ?_⟩
  obtain ⟨k, key⟩ : ∃ k, s.chosenKey c n = k := ⟨_, rfl⟩
  obtain ⟨st, strike⟩ : ∃ st, s.onsetStrike t c n k onset = st := ⟨_, rfl⟩
  obtain ⟨due, time⟩ : ∃ due, strikeDue s.clock onset t.lookAhead st.flight = due := ⟨_, rfl⟩
  obtain ⟨u, taken⟩ : ∃ u, s.takeOver k n due t.repeatGap = u := ⟨_, rfl⟩
  refine ⟨k, st, due, due - BitVec.ofNat 32 ((s.keyCal k).settle + t.repeatGap), u,
    (u.setKey k { u.key k with owner := some (.note n) }).insertStrike due st, fun j owner => ?_, fun unowned => ⟨_, rfl, ?_⟩,
    ?_, ?_, ?_, ?_, ?_, ?_, ?_, rfl, fun free => ?_, fun m owned other => ?_, ?_,
    State.noteOnset_stages playing t c n onset key strike time taken⟩
  · rw [← key]
    exact State.chosenKey_owner owner c
  · rw [← key, State.chosenKey, State.ownedKey_eq_none.mpr unowned]
    exact mappedKey_val n low high
  · rw [← strike]; rfl
  · rw [← strike]; rfl
  · rw [← strike]; rfl
  · rw [← strike]
    exact s.onsetIntensity_spec t c n k
  · rw [← strike]
    exact s.strikeFigures k _
  · rw [← strike]; rfl
  · rw [← time, strikeDue_eq, ← strike]
    rfl
  · rw [← taken]
    exact State.takeOver_free free due _
  · rw [← taken, State.takeOver_owned owned other]
    exact State.insertOther_spec _ _ _
  · exact State.insertStrike_spec _ _ (by rw [← strike]; rfl)

end Sys2Proof.Machine

/-! PROOF. TEST_STRIKE (section 4.9). -/

namespace Sys2Proof.Machine

/-! ## The frame's link beside the rest (R176) -/

/-- What the end of a request's transaction does to each link's port. -/
def releasedPort (h : Head) (l : Link) (p : LinkPort) : LinkPort :=
  if l = h.link then { p with transaction := .idle, lastOut := clockedOut p.fixedReply (3 + h.declared.toNat) 0 } else p

theorem State.heard_eq_beside (s : State) (h : Head) : s.heard h = s.beside { s.bystanders with ports := releasedPort h } := by
  refine State.eq_beside (fun l => ?_) (by simp [State.bystanders]) (by simp [State.bystanders]) (by simp [State.bystanders])
    (by simp [State.bystanders]) (by simp [State.bystanders]) (by simp [State.bystanders])
    (by apply State.eq_of_fields <;> simp)
  rw [State.heard, State.endTransaction, State.link_setLink]
  dsimp only [releasedPort]
  by_cases same : l = h.link
  · subst same
    simp
  · simp [same]

theorem released_neutral (s : State) (h : Head) : Bystanders.Neutral { s.bystanders with ports := releasedPort h } := by
  intro l p e
  simp only [releasedPort]
  split <;> rfl

section

variable {b : Bystanders}

theorem State.beside_makeRoom (hb : b.Neutral) (s : State) : (s.beside b).makeRoom = s.makeRoom.beside b := by
  have queue : (s.beside b).queue = s.queue := rfl
  unfold State.makeRoom
  rw [queue]
  split
  · cases dropCandidate s.queue with
    | none => rfl
    | some c =>
      dsimp only
      rw [← State.beside_clearDroppedOwner, ← State.beside_countDrop hb]
      rfl
  · rfl

theorem State.beside_testTakeover (hb : b.Neutral) (s : State) (k : Key) :
    (s.beside b).testTakeover k = (s.testTakeover k).beside b := by
  have key : (s.beside b).key k = s.key k := rfl
  unfold State.testTakeover
  rw [key]
  cases (s.key k).owner with
  | none => rfl
  | some m =>
    dsimp only
    have room : (s.beside b).takeSeq.makeRoom = s.takeSeq.makeRoom.beside b := State.beside_makeRoom hb s.takeSeq
    exact (congrArg (State.perform · (.takeover k m) s.nextSeq) room).trans
      (State.beside_perform s.takeSeq.makeRoom (.takeover k m) s.nextSeq nofun)

theorem State.beside_testStrike (hb : b.Neutral) (s : State) (k : Key) (intensity holdMs : Nat) :
    (s.beside b).testStrike k intensity holdMs = (s.testStrike k intensity holdMs).beside b := by
  unfold State.testStrike
  dsimp only
  rw [State.beside_testTakeover hb]
  have owner (u : State) : (u.beside b).setOwner k (some .test) = (u.setOwner k (some .test)).beside b := rfl
  rw [owner, State.beside_insertStrike hb]
  exact State.beside_insertOther hb _ _ nofun

end

/-- A TEST_STRIKE does the same before its transaction ends as after it. -/
theorem State.testStrike_heard (s : State) (h : Head) (k : Key) (intensity holdMs : Nat) :
    (s.heard h).testStrike k intensity holdMs = (s.testStrike k intensity holdMs).heard h := by
  rw [State.heard_eq_beside, State.beside_testStrike (released_neutral s h), State.heard_eq_beside]
  simp [State.bystanders]

/-! ## TEST_STRIKE (R75, R145) -/

theorem State.testStrikeCheck_busy {s : State} (busy : s.session.state ∉ [SessionState.noRoll, .loaded]) (key : BitVec 8) :
    s.testStrikeCheck key = .error .busy := by
  rw [State.testStrikeCheck, if_pos (by simpa using busy)]

/-- NO_ROLL and LOADED pass TEST_STRIKE's first check. -/
theorem testStrike_allowed {s : State} (idle : s.session.state ∈ [SessionState.noRoll, .loaded]) :
    ¬(s.session.state ≠ .noRoll ∧ s.session.state ≠ .loaded) := by
  rintro ⟨unloaded, rolled⟩
  simp [unloaded, rolled] at idle

theorem State.testStrikeCheck_driveOff {s : State} (idle : s.session.state ∈ [SessionState.noRoll, .loaded])
    (off : s.drive.actEn = false) (key : BitVec 8) : s.testStrikeCheck key = .error .driveOff := by
  rw [State.testStrikeCheck, if_neg (testStrike_allowed idle), if_pos (by simp [off])]

theorem State.testStrikeCheck_range {s : State} (idle : s.session.state ∈ [SessionState.noRoll, .loaded])
    (on : s.drive.actEn = true) {key : BitVec 8} (high : 88 ≤ key.toNat) : s.testStrikeCheck key = .error .range := by
  rw [State.testStrikeCheck, if_neg (testStrike_allowed idle), if_neg (by simp [on]), key?_of_ge high]

theorem State.testStrikeCheck_ok {s : State} (idle : s.session.state ∈ [SessionState.noRoll, .loaded]) (on : s.drive.actEn = true)
    {key : BitVec 8} {k : Key} (hk : key.toNat = k.val) : s.testStrikeCheck key = .ok k := by
  rw [State.testStrikeCheck, if_neg (testStrike_allowed idle), if_neg (by simp [on]), key?_of_lt hk]

theorem State.testTakeover_unowned {s : State} {k : Key} (free : (s.key k).owner = none) : s.testTakeover k = s := by
  rw [State.testTakeover, free]

theorem State.testTakeover_owned {s : State} {k : Key} {m : Owner} (owned : (s.key k).owner = some m) :
    TakesOverAtOnce s (s.testTakeover k) k m := by
  rw [State.testTakeover, owned]
  exact State.insertPerformed_spec s k m

/-- Settles O41: the checks in their order, then `State.testStrike_heard` and the rule of each insertion. -/
theorem testStrikeQueuesStrikeAndRelease : Obligations.TestStrikeQueuesStrikeAndRelease := by
  intro h key intensity holdMs s ht
  have session : (s.heard h).session = s.session := by simp
  have drive : (s.heard h).drive = s.drive := by simp
  refine ⟨fun busy => ?_, fun idle off => ?_, fun idle on high => ?_, fun k idle on hk => ?_⟩
  · exact onlyAnswers_refusedS ht rfl (by rw [State.testStrikeCheck_busy (by rwa [session])])
  · exact onlyAnswers_refusedS ht rfl (by rw [State.testStrikeCheck_driveOff (by rwa [session]) (by rwa [drive])])
  · exact onlyAnswers_refusedS ht rfl (by rw [State.testStrikeCheck_range (by rwa [session]) (by rwa [drive]) high])
  · obtain ⟨st, strike⟩ : ∃ st, s.testStrikeOf k (min 127 intensity.toNat) = st := ⟨_, rfl⟩
    obtain ⟨u, taken⟩ : ∃ u, s.testTakeover k = u := ⟨_, rfl⟩
    obtain ⟨v, struck⟩ : ∃ v, (u.setKey k { u.key k with owner := some .test }).insertStrike s.clock st = v := ⟨_, rfl⟩
    obtain ⟨w, released⟩ : ∃ w, v.insertOther (s.clock + BitVec.ofNat 32 (st.width + 1000 * min 2000 holdMs.toNat))
      (.release k .test) = w := ⟨_, rfl⟩
    have stages : s.testStrike k intensity.toNat holdMs.toNat = w := by
      have clock : v.clock = s.clock := by rw [← struck, ← taken]; simp
      rw [← released, ← clock, ← struck, ← taken, ← strike, State.testStrike]
      dsimp only
      rw [clamp_zero, clamp_zero]
      rfl
    have run : exec (.testStrike h key intensity holdMs) s = .next ((w.heard h).answer h.link (okReply h)) := by
      refine exec_request_answered ht (onS_of_mem ht.2.1) rfl ?_
      rw [State.testStrikeCheck_ok (by rwa [session]) (by rwa [drive]) hk]
      dsimp only
      rw [State.testStrike_heard, stages]
      rfl
    refine ⟨_, u, v, w, st, run, ?_, ?_, ?_, ?_, ?_, ?_, fun free => ?_, fun m owned => ?_, ?_, ?_,
      Answers.of_raises _ (Raises.refl _), ?_⟩
    · rw [← strike]; rfl
    · rw [← strike]; rfl
    · rw [← strike]; rfl
    · rw [← strike]
      exact s.strikeFigures k _
    · rw [← strike]; rfl
    · rw [← strike]; rfl
    · rw [← taken]
      exact State.testTakeover_unowned free
    · rw [← taken]
      exact State.testTakeover_owned owned
    · rw [← struck]
      exact State.insertStrike_spec _ _ (by rw [← strike]; rfl)
    · rw [← released]
      exact State.insertOther_spec _ _ _
    · apply State.eq_of_fields <;> simp

end Sys2Proof.Machine

/-! PROOF. The session at tracking reports and the end mark (sections 4.4 and 4.6). -/

namespace Sys2Proof.Machine

/-! ## The session at a loss and at a regain (R63, R64) -/

/-- The session after a tracking loss: STALLED from STARTING and PLAYING, one more cause in STALLED (R23, R63). -/
def Session.afterLoss (r : Session) : Session :=
  if r.state = .starting ∨ r.state = .playing then { r with state := .stalled, causes := ⟨false, true, false⟩ }
  else if r.state = .stalled then { r with causes := { r.causes with tracking := true } } else r

/-- The session after a regain with the end mark unconfirmed: TRACKING leaves the causes, and an emptied set leads to STARTING
(R24, R64). -/
def Session.afterRegain (r : Session) : Session :=
  if r.state = .stalled ∧ r.causes = ⟨false, true, false⟩ then r.movedTo .starting r.lastCause
  else if r.state = .stalled then { r with causes := { r.causes with tracking := false } } else r

theorem CauseSet.remove_tracking_eq_empty_iff {c : CauseSet} (held : c.tracking = true) :
    c.remove .tracking = CauseSet.empty ↔ c = ⟨false, true, false⟩ := by
  obtain ⟨noLines, tracking, intakeHalt⟩ := c
  subst held
  cases noLines <;> simp [CauseSet.remove, CauseSet.empty]

theorem CauseSet.without_tracking {c : CauseSet} (unheld : c.tracking = false) : { c with tracking := false } = c := by
  obtain ⟨noLines, tracking, intakeHalt⟩ := c
  subst unheld
  rfl

theorem State.handTracking_loss_session (s : State) : (s.handTracking .loss).session = s.session.afterLoss := by
  show ((s.raise .tracking).reportStall .tracking).session = _
  have raised : (s.raise .tracking).session = s.session := rfl
  unfold Session.afterLoss
  split
  · rename_i running
    rw [State.reportStall_running (by rwa [raised]), (State.enterStalled_spec _ _).1, raised, CauseSet.empty_add_tracking]
  · rename_i still
    rw [State.reportStall_still (by rwa [raised]), raised]
    rfl

theorem State.handTracking_regain_session {s : State} (found : s.tracker.state ≠ .lost)
    (unconfirmed : s.session.endConfirmed = false) : (s.handTracking .regain).session = s.session.afterRegain := by
  show ((s.raise .tracking).reportStallEnd .tracking).session = _
  obtain ⟨u, raised⟩ : ∃ u, s.raise .tracking = u := ⟨_, rfl⟩
  have session : u.session = s.session := by rw [← raised]; rfl
  have tracker : u.tracker = s.tracker := by rw [← raised]; rfl
  rw [raised]
  unfold Session.afterRegain
  by_cases stalled : s.session.state = .stalled
  · by_cases held : s.session.causes.tracking = true
    · have holds : u.session.causes.holds .tracking = true := by rw [session]; exact held
      have stalled' : u.session.state = .stalled := by rw [session]; exact stalled
      by_cases last : s.session.causes = ⟨false, true, false⟩
      · rw [if_pos ⟨stalled, last⟩, State.reportStallEnd_last stalled' holds
          (by rw [session]; exact (CauseSet.remove_tracking_eq_empty_iff held).mpr last)]
        obtain ⟨-, -, -, -, leads⟩ := ({ u with session := { u.session with causes := CauseSet.empty } } : State).enterStarting_spec
        rw [State.StartsFrom, if_neg (by simp [session, unconfirmed]), if_neg (by simpa [tracker] using found)] at leads
        rw [leads.1, session]
        rfl
      · rw [if_neg fun h => last h.2, if_pos stalled, State.reportStallEnd_remaining stalled' holds
          (by rw [session]; exact fun emptied => last ((CauseSet.remove_tracking_eq_empty_iff held).mp emptied)), session]
        rfl
    · have unheld : s.session.causes.tracking = false := by simpa using held
      have others : s.session.causes ≠ ⟨false, true, false⟩ := fun h => by rw [h] at held; exact held rfl
      rw [if_neg fun h => others h.2, if_pos stalled, CauseSet.without_tracking unheld,
        State.reportStallEnd_unheld fun _ => by rw [session]; exact unheld, session]
  · rw [if_neg fun h => stalled h.1, if_neg stalled,
      State.reportStallEnd_unheld fun h => absurd (session ▸ h) stalled, session]

/-! ## The confirmed end mark (R37, R69) -/

theorem State.confirmEnd_starting {s : State} (starting : s.session.state = .starting) (d : Decode) (stamp : Time) :
    (s.confirmEnd d stamp).session =
      { state := .returning, causes := CauseSet.empty, lastCause := some .endMark, endConfirmed := true } := by
  unfold State.confirmEnd
  simp only [starting]
  rw [(State.enterReturning_spec _ _).1]
  rfl

/-- Outside STARTING and PLAYING the end mark is recorded and nothing more (R69). -/
theorem State.confirmEnd_recorded {s : State} (notStarting : s.session.state ≠ .starting) (notPlaying : s.session.state ≠ .playing)
    (d : Decode) (stamp : Time) : s.confirmEnd d stamp = { s with session := { s.session with endConfirmed := true } } := by
  unfold State.confirmEnd
  cases state : s.session.state with
  | starting => exact absurd state notStarting
  | playing => exact absurd state notPlaying
  | noRoll | loaded | paused | stalled | returning => simp only [state]

theorem State.confirmEnd_playing {s : State} (playing : s.session.state = .playing) (d : Decode) (stamp : Time) :
    s.confirmEnd d stamp =
      ({ s with session := { s.session with endConfirmed := true } } : State).insertOther
        (stamp + BitVec.ofNat 32 (d.timing.lookAhead + 2000000)) .endMark := by
  unfold State.confirmEnd
  simp only [playing]
  rfl

/-! ## The END entry's insertion beside another intake (R130, R132) -/

theorem dropCandidate_some {q : List Entry} (strike : ∃ x ∈ q, x.isStrike = true) : ∃ c, dropCandidate q = some c := by
  obtain ⟨x, queued, isStrike⟩ := strike
  unfold dropCandidate
  cases strikes : q.filter Entry.isStrike with
  | nil => exact absurd (List.mem_filter.mpr ⟨queued, isStrike⟩) (by simp [strikes])
  | cons e es => exact ⟨_, rfl⟩

/-- On a full queue with a STRIKE an END entry takes the drop candidate's place. -/
theorem State.insertEnd_replaced {s : State} {c : Entry} (full : 96 ≤ s.queue.length) (candidate : dropCandidate s.queue = some c)
    (due : Time) : s.insertOther due .endMark = s.takeSeq.replaceEntry c ⟨due, s.nextSeq, .endMark⟩ := by
  have queue : s.takeSeq.queue = s.queue := rfl
  unfold State.insertOther
  dsimp only
  rw [if_pos (by rw [queue, queueCapacity]; exact full), queue, candidate]

theorem State.replaceEntry_withIntake (s : State) (i : Intake) (c e : Entry) :
    ({ s with intake := i } : State).replaceEntry c e = { s.replaceEntry c e with intake := i } := by
  have own : s.replaceEntry c e = (s.replaceEntry c e).beside s.bystanders :=
    State.beside_replaceEntry (b := s.bystanders) (Bystanders.neutral_of_ports rfl) s c e
  have moved : ({ s with intake := i } : State).replaceEntry c e =
      (s.replaceEntry c e).beside { s.bystanders with intake := i } :=
    State.beside_replaceEntry (b := { s.bystanders with intake := i }) (Bystanders.neutral_of_ports rfl) s c e
  rw [moved]
  generalize s.replaceEntry c e = after at own ⊢
  rw [own]
  rfl

/-- An END entry that waits in the queue is inserted the same whatever the intake holds. -/
theorem State.insertEnd_queued {s : State} (queued : s.queue.length < 96 ∨ ∃ x ∈ s.queue, x.isStrike = true) (i : Intake)
    (due : Time) :
    ({ s with intake := i } : State).insertOther due .endMark = { s.insertOther due .endMark with intake := i } ∧
      (s.insertOther due .endMark).session = s.session := by
  by_cases room : s.queue.length < 96
  · rw [(State.insertOther_spec s due .endMark).room room,
      (State.insertOther_spec { s with intake := i } due .endMark).room room]
    exact ⟨rfl, rfl⟩
  · have full : 96 ≤ s.queue.length := by omega
    obtain ⟨c, candidate⟩ := dropCandidate_some (queued.resolve_left room)
    rw [State.insertEnd_replaced full candidate, State.insertEnd_replaced (s := { s with intake := i }) full candidate]
    exact ⟨s.takeSeq.replaceEntry_withIntake i c _, by simp⟩

/-- An END entry that a full queue without a STRIKE does not take is performed at once (R132). -/
theorem State.insertEnd_performed {s : State} (full : 96 ≤ s.queue.length) (strikeless : ∀ x ∈ s.queue, x.isStrike = false)
    (playing : s.session.state = .playing) (due : Time) :
    s.insertOther due .endMark = s.takeSeq.enterReturning .endMark := by
  unfold State.insertOther
  dsimp only
  rw [if_pos (by rw [queueCapacity]; exact full), show s.takeSeq.queue = s.queue from rfl, dropCandidate_none strikeless]
  show s.takeSeq.performEnd = _
  rw [State.performEnd, if_pos (by simpa using playing)]

/-! ## The silence beside another intake (R74) -/

theorem State.reformDamper_withIntake (s : State) (i : Intake) :
    ({ s with intake := i } : State).reformDamper = { s.reformDamper with intake := i } := by
  have merge : ({ s with intake := i } : State).damperMerge = s.damperMerge := rfl
  unfold State.reformDamper
  rw [merge]
  dsimp only
  split <;> rfl

theorem State.reformSoft_withIntake (s : State) (i : Intake) :
    ({ s with intake := i } : State).reformSoft = { s.reformSoft with intake := i } := by
  have merge : ({ s with intake := i } : State).softMerge = s.softMerge := rfl
  unfold State.reformSoft
  rw [merge]
  dsimp only
  split <;> rfl

theorem State.silence_withIntake (s : State) (i : Intake) :
    ({ s with intake := i } : State).silence = { s.silence with intake := i } := by
  obtain ⟨u, requested⟩ : ∃ u : State, ({ s.flushQueue.releaseKeys.clearOwners with
    struckKeys := Vector.replicate 88 none
    pedals := { s.flushQueue.releaseKeys.clearOwners.pedals with rollDamper := 0, rollSoft := 0 } } : State) = u := ⟨_, rfl⟩
  have here : s.silence = u.reformDamper.reformSoft := by rw [← requested]; rfl
  have moved : ({ s with intake := i } : State).silence = ({ u with intake := i } : State).reformDamper.reformSoft := by
    rw [← requested]
    rfl
  rw [moved, here, State.reformDamper_withIntake, State.reformSoft_withIntake]

/-- An entry to RETURNING leaves of the intake only what stopping it leaves. -/
theorem State.enterReturning_withIntake {s : State} {i : Intake} (stopped : i.stopped = s.intake.stopped) (c : LastCause) :
    ({ s with intake := i } : State).enterReturning c = s.enterReturning c := by
  have silenced := ((s.moveSession .returning).setLastCause (some c)).silence_withIntake i
  have intake : (((s.moveSession .returning).setLastCause (some c)).silence).intake = s.intake := by simp
  have moved : ({ s with intake := i } : State).enterReturning c =
      { ({ (s.moveSession .returning).setLastCause (some c) with intake := i } : State).silence with
        intake := ({ (s.moveSession .returning).setLastCause (some c) with intake := i } : State).silence.intake.stopped } := rfl
  rw [moved, silenced, State.enterReturning]
  dsimp only
  rw [stopped, intake]

end Sys2Proof.Machine

/-! PROOF. A sampled line up to its end mark's test (R35). -/

namespace Sys2Proof.Machine

/-! ## A sampled line up to its end mark's test (R35) -/

/-- Whether a line loses the tracking (R23). -/
def Tracker.loses (t : Tracker) (l : Line) : Prop := t.state ≠ .lost ∧ l.validEdges = false ∧ 47 ≤ t.invalidRun

/-- Whether a line regains it (R24). -/
def Tracker.regains (t : Tracker) (l : Line) : Prop := t.state = .lost ∧ l.validEdges = true ∧ 7 ≤ t.validRun

theorem Tracker.judge_plain {t : Tracker} {l : Line} (found : t.state ≠ .lost) (keeps : ¬t.loses l) :
    ∃ judged, t.judge l = ⟨judged, true, none⟩ := by
  cases valid : l.validEdges with
  | true => exact ⟨_, Tracker.judge_valid valid found⟩
  | false =>
    have short : t.invalidRun < 47 := by
      by_contra long
      exact keeps ⟨found, valid, by omega⟩
    exact ⟨_, Tracker.judge_invalid valid found short⟩

/-- A line with a tracking report comes to its end mark's test with the session as the report leaves it, whichever of the
reports was handed on first (R35). -/
theorem State.applyDecode_reported {s : State} {d : Decode} {l : Line} {r : TrackReport} {after : Session → Session}
    (unconfirmed : s.session.endConfirmed = false) (report : (s.tracker.judge l).report = some r)
    (session : ∀ u : State, u.session = s.session → u.tracker = (s.tracker.judge l).tracker →
      (u.handTracking r).session = after s.session) :
    ∃ m : State, s.applyDecode d l = m.testEnd d l ∧ m.session = after s.session := by
  refine ⟨_, State.applyDecode_report s d l r unconfirmed report, ?_⟩
  split
  · rw [(State.sampleLine_frame _ d l).2.2.2.2.2.2.1]
    exact session _ rfl rfl
  · exact session _ (by simp) (by simp)

theorem State.applyDecode_loss {s : State} {l : Line} (d : Decode) (unconfirmed : s.session.endConfirmed = false)
    (loses : s.tracker.loses l) : ∃ m : State, s.applyDecode d l = m.testEnd d l ∧ m.session = s.session.afterLoss := by
  obtain ⟨found, invalid, long⟩ := loses
  exact State.applyDecode_reported unconfirmed (by rw [Tracker.judge_loss invalid found long]) fun u session _ => by
    rw [State.handTracking_loss_session, session]

theorem State.applyDecode_regain {s : State} {l : Line} (d : Decode) (unconfirmed : s.session.endConfirmed = false)
    (regains : s.tracker.regains l) : ∃ m : State, s.applyDecode d l = m.testEnd d l ∧ m.session = s.session.afterRegain := by
  obtain ⟨lost, valid, long⟩ := regains
  have judged := Tracker.judge_regain valid lost long
  exact State.applyDecode_reported unconfirmed (by rw [judged]) fun u session tracker => by
    rw [State.handTracking_regain_session (by rw [tracker, judged]; nofun) (by rw [session]; exact unconfirmed), session]

/-! ## Past the end mark's test -/

theorem Session.afterLoss_endConfirmed (r : Session) : r.afterLoss.endConfirmed = r.endConfirmed := by
  unfold Session.afterLoss
  split
  · rfl
  · split <;> rfl

theorem Session.afterRegain_endConfirmed (r : Session) : r.afterRegain.endConfirmed = r.endConfirmed := by
  unfold Session.afterRegain
  split
  · rfl
  · split <;> rfl

theorem State.completed_session {s : State} {d : Decode} {l : Line} : (s.applyDecode d l).beginDecode.session = (s.applyDecode d l).session := by
  simp

/-- The END detector past its test is the one that was tested. -/
theorem State.testEnd_end {s m : State} {d : Decode} {l : Line} (tested : s.applyDecode d l = m.testEnd d l) :
    m.detectors = (s.applyDecode d l).beginDecode.detectors := by
  rw [(State.beginDecode_frame _).2.2.2.2.2.1, tested, (State.testEnd_frame m d l).2.2.1]

theorem State.testEnd_unreached {m : State} {d : Decode} {l : Line} (unreached : endReached m.detectors[trackEnd] l.position = false) :
    m.testEnd d l = m := by
  rw [State.testEnd, if_neg (ne_true_of_eq_false unreached)]

theorem State.testEnd_reached {m : State} {d : Decode} {l : Line} (reached : endReached m.detectors[trackEnd] l.position = true) :
    m.testEnd d l = m.confirmEnd d l.stamp := by
  rw [State.testEnd, if_pos reached]

/-- A session that is neither STARTING nor PLAYING records the end mark (R69). -/
theorem State.confirmEnd_session_recorded {m : State} {r : Session} (session : m.session = r) (notStarting : r.state ≠ .starting)
    (notPlaying : r.state ≠ .playing) (d : Decode) (stamp : Time) :
    (m.confirmEnd d stamp).session = { r with endConfirmed := true } := by
  subst session
  rw [State.confirmEnd_recorded notStarting notPlaying]

theorem State.confirmEnd_afterLoss {m : State} {r : Session} (session : m.session = r.afterLoss) (d : Decode) (stamp : Time) :
    (m.confirmEnd d stamp).session =
      (if r.state = .starting ∨ r.state = .playing then
        { r with state := .stalled, causes := ⟨false, true, false⟩, endConfirmed := true }
      else if r.state = .stalled then { r with causes := { r.causes with tracking := true }, endConfirmed := true }
      else { r with endConfirmed := true }) := by
  unfold Session.afterLoss at session
  by_cases running : r.state = .starting ∨ r.state = .playing
  · rw [if_pos running] at session ⊢
    exact State.confirmEnd_session_recorded session nofun nofun d stamp
  · obtain ⟨notStarting, notPlaying⟩ := not_or.mp running
    rw [if_neg running] at session ⊢
    by_cases stalled : r.state = .stalled
    · rw [if_pos stalled] at session ⊢
      exact State.confirmEnd_session_recorded session notStarting notPlaying d stamp
    · rw [if_neg stalled] at session ⊢
      exact State.confirmEnd_session_recorded session notStarting notPlaying d stamp

theorem State.confirmEnd_afterRegain {m : State} {r : Session} (session : m.session = r.afterRegain)
    (notStarting : r.state ≠ .starting) (notPlaying : r.state ≠ .playing) (d : Decode) (stamp : Time) :
    (m.confirmEnd d stamp).session =
      (if r.state = .stalled ∧ r.causes = ⟨false, true, false⟩ then
        { state := .returning, causes := CauseSet.empty, lastCause := some .endMark, endConfirmed := true }
      else if r.state = .stalled then { r with causes := { r.causes with tracking := false }, endConfirmed := true }
      else { r with endConfirmed := true }) := by
  unfold Session.afterRegain at session
  by_cases last : r.state = .stalled ∧ r.causes = ⟨false, true, false⟩
  · rw [if_pos last] at session ⊢
    exact State.confirmEnd_starting (by rw [session]; rfl) d stamp
  · rw [if_neg last] at session ⊢
    by_cases stalled : r.state = .stalled
    · rw [if_pos stalled] at session ⊢
      exact State.confirmEnd_session_recorded session notStarting notPlaying d stamp
    · rw [if_neg stalled] at session ⊢
      exact State.confirmEnd_session_recorded session notStarting notPlaying d stamp

/-! ## The END entry of a line in PLAYING (R37, R132) -/

/-- The samples of a line do not look at the intake. -/
theorem State.sampleLine_withIntake (s : State) (i : Intake) (d : Decode) (l : Line) :
    ({ s with intake := i } : State).sampleLine d l = { s.sampleLine d l with intake := i } := by
  rw [State.sampleLine_eq, State.sampleLine_eq]
  generalize sampleAll s.detectors s.tracker.filter l = new
  exact State.reported_withIntake { s with detectors := new } i d s.detectors

/-- A line's completion that confirms the end mark in PLAYING: the END entry joins the queue as it does beside the intake the
line was in, or leads to RETURNING, which stops the intake. -/
theorem State.completed_playing {s m : State} {rest : List Line} {d : Decode} {stamp due : Time}
    (hdue : due = stamp + BitVec.ofNat 32 (d.timing.lookAhead + 2000000)) (playing : m.session.state = .playing)
    (intake : m.intake = s.intake) (clock : m.clock = s.clock) (timing : m.timing = s.timing) (console : m.console = s.console) :
    ∃ v t : State, InsertsOther { m with session := { m.session with endConfirmed := true } } v due .endMark ∧
      t = (State.confirmEnd { m with intake := s.intake.popped rest } d stamp).beginDecode ∧
      (m.queue.length < 96 ∨ (∃ x ∈ m.queue, x.isStrike = true) →
        t = { v with intake := s.nextIntake rest } ∧ t.session = { m.session with endConfirmed := true }) ∧
      (96 ≤ m.queue.length → (∀ x ∈ m.queue, x.isStrike = false) →
        t = v ∧ t.session =
          { state := .returning, causes := CauseSet.empty, lastCause := some .endMark, endConfirmed := true }) := by
  obtain ⟨u, flagged⟩ : ∃ u : State, ({ m with session := { m.session with endConfirmed := true } } : State) = u := ⟨_, rfl⟩
  have queue : u.queue = m.queue := by rw [← flagged]
  have session : u.session = { m.session with endConfirmed := true } := by rw [← flagged]
  have confirmed : State.confirmEnd { m with intake := s.intake.popped rest } d stamp =
      ({ u with intake := s.intake.popped rest } : State).insertOther due .endMark := by
    rw [State.confirmEnd_playing (s := { m with intake := s.intake.popped rest }) playing, ← flagged, hdue]
  refine ⟨u.insertOther due .endMark, _, by rw [flagged]; exact State.insertOther_spec _ _ _, rfl, fun queued => ?_,
    fun full strikeless => ?_⟩
  · obtain ⟨moved, kept⟩ := State.insertEnd_queued (s := u) (by rwa [queue]) (s.intake.popped rest) due
    rw [confirmed, moved, State.beginDecode_of_popped (s := s) (rest := rest) rfl (by simp [← flagged, clock])
      (by simp [← flagged, timing]) (by simp [← flagged, console])]
    exact ⟨rfl, kept.trans session⟩
  · have state : u.session.state = .playing := by rw [session]; exact playing
    have stopped : (s.intake.popped rest).stopped = u.takeSeq.intake.stopped := by
      have same : u.takeSeq.intake = s.intake := by rw [← intake, ← flagged]; rfl
      rw [same]
      rfl
    have performed : ({ u with intake := s.intake.popped rest } : State).insertOther due .endMark =
        u.takeSeq.enterReturning .endMark := by
      rw [State.insertEnd_performed (s := { u with intake := s.intake.popped rest }) (by rwa [queue]) (by rwa [queue]) state]
      exact State.enterReturning_withIntake (s := u.takeSeq) stopped .endMark
    obtain ⟨moved, -, -, -, off⟩ := u.takeSeq.enterReturning_spec .endMark
    rw [confirmed, performed, State.beginDecode_of_stopped (i := u.takeSeq.intake) off,
      State.insertEnd_performed (by rwa [queue]) (by rwa [queue]) state, moved]
    refine ⟨rfl, ?_⟩
    have same : u.takeSeq.session = u.session := rfl
    rw [same, session]
    rfl

end Sys2Proof.Machine

/-! PROOF. The confirmation of the end mark (section 2.6). -/

namespace Sys2Proof.Machine

/-! ## The end mark of a decoded line (R36, R37, R69) -/

/-- A sampled line comes to its end mark's test with the session that its reports leave. -/
theorem State.applyDecode_tested {s : State} {l : Line} (d : Decode) (rest : List Line) (unconfirmed : s.session.endConfirmed = false)
    (sampled : s.tracker.state ≠ .lost ∨ s.tracker.regains l) :
    ∃ m : State, (s.popped rest).applyDecode d l = m.testEnd d l ∧
      (s.tracker.loses l → m.session = s.session.afterLoss) ∧ (s.tracker.regains l → m.session = s.session.afterRegain) ∧
      (¬s.tracker.loses l → ¬s.tracker.regains l → ∃ judged : Tracker,
        m = { ({ s with tracker := judged } : State).sampleLine d l with intake := s.intake.popped rest }) := by
  by_cases regains : s.tracker.regains l
  · obtain ⟨m, tested, session⟩ := State.applyDecode_regain (s := s.popped rest) d unconfirmed regains
    exact ⟨m, tested, fun loses => absurd regains.1 loses.1, fun _ => session, fun _ plain => absurd regains plain⟩
  by_cases loses : s.tracker.loses l
  · obtain ⟨m, tested, session⟩ := State.applyDecode_loss (s := s.popped rest) d unconfirmed loses
    exact ⟨m, tested, fun _ => session, fun regain => absurd regain regains, fun keeps _ => absurd loses keeps⟩
  · obtain ⟨judged, plain⟩ := Tracker.judge_plain (sampled.resolve_right regains) loses
    refine ⟨_, State.applyDecode_sampled (s := s.popped rest) unconfirmed plain, fun loss => absurd loss loses,
      fun regain => absurd regain regains, fun _ _ => ⟨judged, ?_⟩⟩
    exact State.sampleLine_withIntake { s with tracker := judged } (s.intake.popped rest) d l

theorem State.confirmEnd_endConfirmed (s : State) (d : Decode) (stamp : Time) :
    (s.confirmEnd d stamp).session.endConfirmed = true := by
  by_cases starting : s.session.state = .starting
  · rw [State.confirmEnd_starting starting]
  by_cases playing : s.session.state = .playing
  · rw [State.confirmEnd_playing playing]
    rcases State.insertEnd_cases { s with session := { s.session with endConfirmed := true } }
      (stamp + BitVec.ofNat 32 (d.timing.lookAhead + 2000000)) with same | ⟨-, performed⟩
    · rw [same.session]
    · rw [performed, (State.enterReturning_spec _ _).1]
      rfl
  · rw [State.confirmEnd_recorded starting playing]

theorem endReached_eq_true {det : Detector} {onset : Mark} {dark : DarkRun} {p : Position} (isOpen : det = .opened onset dark)
    (long : 31 ≤ (p - onset.position).toNat) : endReached det p = true := by
  rw [isOpen, endReached]
  exact decide_eq_true long

/-- Settles O26: the session as the line's reports leave it (`State.applyDecode_tested`), and what the end mark then makes of it,
by its state. -/
theorem endMarkConfirmation : Obligations.EndMarkConfirmation := by
  rintro d l rest s next loss regain running later head unconfirmed hnext hloss hregain sampled
  have hloss : loss ↔ s.tracker.loses l := hloss
  have hregain : regain ↔ s.tracker.regains l := hregain
  obtain ⟨m, tested, lost, regained, plain⟩ := State.applyDecode_tested d rest unconfirmed (sampled.imp_right hregain.mp)
  rw [← hloss] at lost
  rw [← hregain] at regained
  rw [← hloss, ← hregain] at plain
  have flag : m.session.endConfirmed = false := by
    by_cases loses : loss
    · rw [lost loses, Session.afterLoss_endConfirmed, unconfirmed]
    by_cases regains : regain
    · rw [regained regains, Session.afterRegain_endConfirmed, unconfirmed]
    · obtain ⟨judged, sampledOnly⟩ := plain loses regains
      rw [sampledOnly]
      simpa using unconfirmed
  have kept (loses : ¬loss) (regains : ¬regain) : m.session = s.session := by
    obtain ⟨judged, sampledOnly⟩ := plain loses regains
    rw [sampledOnly]
    simp
  obtain ⟨t, completed⟩ : ∃ t, ((s.popped rest).applyDecode d l).beginDecode = t := ⟨_, rfl⟩
  have detectors : t.detectors = m.detectors := by rw [← completed, State.testEnd_end tested]
  have session : t.session = (m.testEnd d l).session := by rw [← completed, State.completed_session, tested]
  refine ⟨t, (exec_decodeCompletion_later running later head).trans (by rw [completed]), fun short => ?_,
    fun onset dark isOpen long => ?_⟩
  · rw [detectors] at short
    rw [session, State.testEnd_unreached (endReached_eq_false short)]
    exact ⟨flag, kept⟩
  · rw [detectors] at isOpen
    have confirmed : m.testEnd d l = m.confirmEnd d l.stamp := State.testEnd_reached (endReached_eq_true isOpen long)
    rw [confirmed] at session
    refine ⟨by rw [session]; exact m.confirmEnd_endConfirmed d l.stamp, fun loses regains => ⟨fun starting => ?_,
      fun notStarting notPlaying => ?_, fun playing => ?_⟩, fun loses => ?_, fun regains still => ?_⟩
    · rw [session, State.confirmEnd_starting (by rw [kept loses regains]; exact starting)]
    · rw [session]
      exact State.confirmEnd_session_recorded (kept loses regains) notStarting notPlaying d l.stamp
    · obtain ⟨judged, sampledOnly⟩ := plain loses regains
      obtain ⟨u, reports⟩ : ∃ u, ({ s with tracker := judged } : State).sampleLine d l = u := ⟨_, rfl⟩
      have same : u.session = s.session := by rw [← reports]; simp
      rw [reports] at sampledOnly
      have tracked : t.tracker = judged := by
        rw [← completed, (State.beginDecode_frame _).2.2.2.2.1, tested, (State.testEnd_frame m d l).2.1, sampledOnly, ← reports]
        simp
      have sampledTo : t.detectors = sampleAll s.detectors judged.filter l := by
        rw [detectors, sampledOnly, ← reports]
        simp
      obtain ⟨v, t', inserts, outcome, queued, performed⟩ := State.completed_playing (s := s) (m := u) (rest := rest) (d := d)
        (stamp := l.stamp) rfl (by rw [same]; exact playing) (by rw [← reports]; simp) (by rw [← reports]; simp)
        (by rw [← reports]; simp) (by rw [← reports]; simp)
      have reached : t = t' := by rw [outcome, ← completed, tested, confirmed, sampledOnly]
      rw [same] at inserts queued
      rw [← reached] at queued performed
      refine ⟨u, v, ?_, inserts, by rw [hnext]; exact queued, performed⟩
      rw [tracked, sampledTo, ← reports, State.sampleLine_eq]
    · rw [session]
      exact State.confirmEnd_afterLoss (lost loses) d l.stamp
    · rw [session]
      obtain ⟨notStarting, notPlaying⟩ : s.session.state ≠ .starting ∧ s.session.state ≠ .playing := by simpa using still
      exact State.confirmEnd_afterRegain (regained regains) notStarting notPlaying d l.stamp

end Sys2Proof.Machine
